-- ==== Sys2Proof/Word.lean ====
section
/-! DEFINITION. The widths of the words, bytes, cell sets and coordinates of the KP512 (chapters 0.3 and 13). -/

namespace Sys2Proof

/-- A byte: one character's data on the cluster line, one glyph row, one cell value of the station record. -/
abbrev Byte := BitVec 8

/-- An order word, a port word or an input record: 16 bits (section 0.3, Words). -/
abbrev Word := BitVec 16

/-- A set of the cells 0..15 of one row-group (section 0.3, Cell sets): bit `k` is cell `k`. Union is `|||`,
difference is `a &&& ~~~b`, symmetric difference is `^^^`, and the empty set is `0`. -/
abbrev Cells := BitVec 16

/-- A panel coordinate, 0..511 (section 0.3, Cells); also a panel row number. -/
abbrev Coord := Fin 512

/-- A group number, 0..31 (section 0.3, Groups and row-groups). -/
abbrev Group := Fin 32

end Sys2Proof
end

