-- ==== Sys2Proof/Syntax.lean ====
section
/-! DEFINITION. The commands of the KP512: one constructor of `Instr` per row of spec/opcode_table.json, in the table's
order. -/

namespace Sys2Proof

/-- The two order paths (section 0.5, Channel). -/
inductive Channel where
  /-- The line channel: the central computer's orders. -/
  | lineCh
  /-- The local channel: the terminal processor's orders. -/
  | localCh
  deriving DecidableEq, Repr

/-- A command: one event at a pin, a timer or an interface of the part, or one of the part's own indivisible steps. -/
inductive Instr where
  /-- Power-on reset, at its end (R139). -/
  | powerOnReset
  /-- The terminal reset input is asserted (R58). -/
  | terminalReset
  /-- The terminal reset input is released (R136). -/
  | terminalResetRelease
  /-- The sustain supply falls, to `millivolts` (R76). -/
  | supplyDroop (millivolts : Nat)
  /-- The sustain supply rises, to `millivolts` (R76). -/
  | supplyRecover (millivolts : Nat)
  /-- The 20 ms settle timer expires (R76). -/
  | settleTimerExpiry
  /-- A cycle start after the first (R80). -/
  | cycleStart
  /-- The opening of an address window (R69, R71). -/
  | addressWindow
  /-- The restore scanner is served and makes one restore step (R93). -/
  | restoreStep
  /-- The arbiter grants a span or unit (R6). -/
  | arbiterGrant
  /-- The held span renders (R7). -/
  | spanRender
  /-- A dropped RASTER row of channel `ch` is handled (R29). -/
  | droppedRowHandling (ch : Channel)
  /-- The decoder of `ch` carries out NOP (R49). -/
  | nop (ch : Channel)
  /-- The decoder of `ch` carries out MOVE (R18). -/
  | move (ch : Channel)
  /-- The DOT order of `ch` takes its next step: its start, and the grant of its span (R20). -/
  | dot (ch : Channel)
  /-- The LINE order of `ch` takes its next step: its start, and the grant of its next span (R21 to R24). -/
  | line (ch : Channel)
  /-- The BLOCK order of `ch` takes its next step (R25). -/
  | block (ch : Channel)
  /-- The RASTER order of `ch` takes its next step (R26 to R28). -/
  | raster (ch : Channel)
  /-- The TEXT order of `ch` takes its next step (R40 to R45). -/
  | text (ch : Channel)
  /-- The decoder of `ch` carries out NEWLINE (R46). -/
  | newline (ch : Channel)
  /-- The decoder of `ch` carries out MARGIN (R47). -/
  | margin (ch : Channel)
  /-- The decoder of `ch` carries out MODE (R52). -/
  | mode (ch : Channel)
  /-- The decoder of `ch` carries out CLIP (R52). -/
  | clip (ch : Channel)
  /-- The GLYPH order of `ch` takes its next step: its start, and the grant of its unit (R37, R38). -/
  | glyph (ch : Channel)
  /-- The WIPE order of `ch` takes its next step (R30 to R33). -/
  | wipe (ch : Channel)
  /-- The PASS order of `ch` takes its next step (R59). -/
  | pass (ch : Channel)
  /-- The REPAINT order of `ch` takes its next step (R96). -/
  | repaint (ch : Channel)
  /-- SUPERVISE TAKE on `ch` takes its next step (R102, R105); a SUPERVISE of an unassigned function is met here too. -/
  | take (ch : Channel)
  /-- SUPERVISE GIVE on `ch` takes its next step (R102, R106). -/
  | give (ch : Channel)
  /-- SUPERVISE AREA on `ch` takes its next step (R102, R109). -/
  | area (ch : Channel)
  /-- SUPERVISE LOCK on `ch` takes its next step (R102, R110). -/
  | lock (ch : Channel)
  /-- SUPERVISE ROUTE on `ch` takes its next step (R102, R110). -/
  | route (ch : Channel)
  /-- SUPERVISE TIMING on `ch` takes its next step (R102, R85). -/
  | timing (ch : Channel)
  /-- A write of `word` to location 0, ORDER (R55). -/
  | order (word : Word)
  /-- A read of location 1, INPUT (R130). -/
  | input
  /-- A read of location 2, STATUS (R131). -/
  | status
  /-- A write of `word` to a location whose write is ignored, or of a control word of unassigned code (R129, R134). -/
  | ignoredWrite (location : BitVec 3) (word : Word)
  /-- Control word CLEAR-LOCAL (R56). The argument field of a control word is bits 11..0 (R142). -/
  | clearLocal (argument : BitVec 12)
  /-- Control word RESUME (R107). -/
  | resume (argument : BitVec 12)
  /-- Control word EVENT-ACK (R132). -/
  | eventAck (argument : BitVec 12)
  /-- Control word EVENT-ENABLE (R133). -/
  | eventEnable (argument : BitVec 12)
  /-- Control word PANEL-ON (R77). -/
  | panelOn (argument : BitVec 12)
  /-- Control word PANEL-OFF (R77). -/
  | panelOff (argument : BitVec 12)
  /-- Control word RECORD-SELECT (R136). -/
  | recordSelect (argument : BitVec 12)
  /-- Control word RECORD-WRITE (R137). -/
  | recordWrite (argument : BitVec 12)
  /-- Control word RECORD-COMMIT (R137). -/
  | recordCommit (argument : BitVec 12)
  /-- Control word RECORD-LOCK (R137). -/
  | recordLock (argument : BitVec 12)
  /-- The 2 ms of a programming operation expire (R138). -/
  | programmingOperationEnd
  /-- The scan event, with the beam inputs as sampled: bit `j` is beam `j`, 1 when blocked (R111). -/
  | scanEvent (horizontal vertical : BitVec 16)
  /-- A falling edge after which the line stays low for `lowSixteenths` sixteenths of a bit time (R119). -/
  | characterStart (lowSixteenths : Nat)
  /-- A character's arrival, at the sample of its stop bit (R120). Bit `k` of `samples` is the level sampled in the middle of
  bit time `k`, the start bit being bit time 0 (R119, R143). -/
  | characterArrival (samples : BitVec 12)
  /-- The arrival of the check character of an ORDERS frame: a good character, mark clear (R123). -/
  | orders (check : Byte)
  /-- The arrival of the check character of a CLEAR frame (R125). -/
  | clear (check : Byte)
  /-- The arrival of the check character of a POLL frame (R126). -/
  | poll (check : Byte)
  /-- The two-character turnaround gap expires (R126, R127). -/
  | turnaroundGapExpiry
  /-- The end of the reply's last stop bit (R126). -/
  | replySent
  /-- The line receive input goes high (R119). -/
  | lineGoesHigh
  deriving DecidableEq, Repr

end Sys2Proof
end

