-- ==== Sys2Proof/Decode.lean ====
section
/-! DEFINITION. Decoding. No row of spec/opcode_table.json gives bits, so `decodeTableWord` spells no command. The raw
accesses of the local word port do have a layout (R129, R134, R142): `decodePortWrite` and `decodePortRead` name the row
that an access is. -/

namespace Sys2Proof

/-- The command that a word spells by the table's bits: the table gives no row any bits, so none. -/
def decodeTableWord (_nbits _w : Nat) : Option Instr := none

/-- The argument field of a control word, bits 11..0 (R142). -/
def controlArgument (word : Word) : BitVec 12 := word.extractLsb' 0 12

/-- The command that a write of `word` to `location` is (R129); a control word is told by bits 15..12 (R142). -/
def decodePortWrite (location : BitVec 3) (word : Word) : Instr :=
  match location.toNat with
  | 0 => .order word
  | 3 =>
    match word.toNat / 4096 with
    | 1 => .clearLocal (controlArgument word)
    | 2 => .resume (controlArgument word)
    | 3 => .eventAck (controlArgument word)
    | 4 => .eventEnable (controlArgument word)
    | 5 => .panelOn (controlArgument word)
    | 6 => .panelOff (controlArgument word)
    | 7 => .recordSelect (controlArgument word)
    | 8 => .recordWrite (controlArgument word)
    | 9 => .recordCommit (controlArgument word)
    | 10 => .recordLock (controlArgument word)
    | _ => .ignoredWrite location word
  | _ => .ignoredWrite location word

/-- The command that a read of `location` is; the reads that change nothing have no row of the table (R129). What every
read returns is `Machine.portRead`. -/
def decodePortRead (location : BitVec 3) : Option Instr :=
  match location.toNat with
  | 1 => some .input
  | 2 => some .status
  | _ => none

end Sys2Proof
end

