-- ==== Sys2Proof/Config.lean ====
section
/-! DEFINITION. The capacities and times the manual fixes, and the model's one free value. Times are in quarters of
0.25 microseconds, the manual's unit of sustain timing (section 0.3, Time). -/

namespace Sys2Proof.Config

/-- Strike items the strike queue holds (R63). -/
abbrev strikeCapacity : Nat := 64
/-- Order words the line FIFO holds (R48). -/
abbrev lineFifoCapacity : Nat := 256
/-- Order words the local FIFO holds (R48). -/
abbrev localFifoCapacity : Nat := 64
/-- Records each input queue holds (R117, R128). -/
abbrev recordCapacity : Nat := 16
/-- The largest frame length accepted, which is the staging buffer's size (R122). -/
abbrev frameCapacity : Nat := 32
/-- Records one reply carries at most (R127). -/
abbrev replyRecords : Nat := 4
/-- Local FIFO free count at which the SPACE flag is raised (R132). -/
abbrev spaceThreshold : Nat := 32

/-- The settle timer: 20 ms (R75). -/
abbrev settleQuarters : Nat := 80000
/-- The scan timer: 10 ms (R111). -/
abbrev scanQuarters : Nat := 40000
/-- A station record programming operation: 2 ms (R137). -/
abbrev programQuarters : Nat := 8000

/-- The largest number of internal steps one event is followed through. One order word gives at most 512 * 32 spans, so
one event has fewer than this many steps in any state whose FIFOs are within their capacities (log entry 4). -/
abbrev eventFuel : Nat := 16777216

/-- FREE VALUE. The cells of row-group `key` that the panel shows lit from the `start`-th sustain start until the priming
bulk erase: R71 says they "may have been left in any state". Log entry 9. -/
opaque panelAtStart : (start key : Nat) → Cells

end Sys2Proof.Config
end

