-- ==== Sys2Proof/Machine/Sparse.lean ====
section
/-! DEFINITION. Sparse tables: a list of (key, value) pairs in one canonical form, keys strictly rising and no entry equal
to the value an unlisted key reads as. The shadow image, the panel, the glyph memory, the stale-row table and the station
record's cells are held so. -/

namespace Sys2Proof.Machine

/-- The value at key `a`; an unlisted key reads as `d`. -/
def sparseGet {α : Type} (d : α) : List (Nat × α) → Nat → α
  | [], _ => d
  | (k, v) :: rest, a => if a = k then v else sparseGet d rest a

/-- Write `v` at key `a`, keeping the canonical form: writing `d` removes the entry. -/
def sparseSet {α : Type} [DecidableEq α] (d : α) : List (Nat × α) → Nat → α → List (Nat × α)
  | [], a, v => if v = d then [] else [(a, v)]
  | (k, w) :: rest, a, v =>
    if a < k then if v = d then (k, w) :: rest else (a, v) :: (k, w) :: rest
    else if a = k then if v = d then rest else (a, v) :: rest
    else (k, w) :: sparseSet d rest a v

/-- The canonical table whose keys below `n` read as `f`. -/
def sparseTable {α : Type} [DecidableEq α] (d : α) (n : Nat) (f : Nat → α) : List (Nat × α) :=
  (List.range n).filterMap fun k => if f k = d then none else some (k, f k)

/-- The canonical form: keys strictly rising, no entry equal to the default. -/
abbrev SparseWf {α : Type} [DecidableEq α] (d : α) (m : List (Nat × α)) : Prop :=
  m.Pairwise (fun p q => p.1 < q.1) ∧ ∀ p ∈ m, p.2 ≠ d

end Sys2Proof.Machine
end

