-- ==== Sys2Proof/Machine/State.lean ====
section
/-! DEFINITION. The state of the KP512 as plain data, block by block, its value after power-on reset, and the reasons a
step can stop. -/

namespace Sys2Proof.Machine

/-- No command of the KP512 faults: the manual names no event that stops the part. The type has no constructor. -/
inductive Fault where
  deriving DecidableEq, Repr

/-- Why a command has no meaning. -/
inductive Refusal where
  /-- Raised by an arm of `exec` alone, for a row of the table without a meaning yet. Safe. No arm raises it. -/
  | notModelled (mnemonic : String)
  deriving DecidableEq, Repr

/-- A panel cell (x, y) (section 0.3). -/
structure Point where
  x : Coord
  y : Coord
  deriving DecidableEq, Repr

/-- A rectangle by its low and high corners, both included (section 0.6, Ranges). -/
structure Rect where
  xLo : Coord
  yLo : Coord
  xHi : Coord
  yHi : Coord
  deriving DecidableEq, Repr

/-- The drawing modes (R11). -/
inductive Mode where
  | write | erase | inverse | rewrite
  deriving DecidableEq, Repr

/-- The character sizes 1 and 2 (R41). -/
inductive Size where
  | one | two
  deriving DecidableEq, Repr

/-- A channel's drawing context (R52). -/
structure Context where
  position : Point
  penFresh : Bool
  mode : Mode
  size : Size
  margin : Coord
  clip : Rect
  deriving DecidableEq, Repr

/-- The response states (R55); HOLD is the local channel's alone. -/
inductive Response where
  | accept | hold | halted
  deriving DecidableEq, Repr

/-- The halt causes (R53). -/
inductive HaltCause where
  | code | argument | privilege | locked
  deriving DecidableEq, Repr

/-- The touch routes (R116). -/
inductive Route where
  | noMaster | toLine | toLocal | toBoth
  deriving DecidableEq, Repr

/-- A SUPERVISE function with its latched argument values (R102). -/
inductive Supervise where
  | take
  | give
  | area (x1 y1 x2 y2 : Coord)
  | lock (sets : BitVec 4)
  | route (value : Route)
  | timing (period dead : Word)
  deriving DecidableEq, Repr

/-- The character in progress of a TEXT order: its code and its 16 latched glyph rows (R43). -/
structure Latch where
  code : Byte
  rows : List Byte
  deriving DecidableEq, Repr

/-- The order-in-progress record (R51). `next` is the span cursor: the next span's number (for LINE, the next step). -/
inductive Order where
  /-- DOT; `granted` once its one span has been granted. -/
  | dot (cell : Point) (granted : Bool)
  /-- LINE from its start position to its argument. -/
  | line (start stop : Point) (next : Nat)
  /-- BLOCK with its start position and its argument as corners. -/
  | block (start corner : Point) (next : Nat)
  /-- RASTER: `rowsLeft` image rows are not yet handled, and `image` is the row being drawn or come to next. -/
  | raster (start : Point) (width rowsLeft image next : Nat) (latch : Option (List Word))
  /-- TEXT: `next` is the next span of the character in progress, `none` once its last span has been granted. -/
  | text (left : Nat) (cursor : Point) (pendingCode : Option Byte) (current : Option Latch) (next : Option Nat)
  /-- GLYPH with its slot. -/
  | glyph (slot : Byte)
  /-- WIPE on the bulk path. -/
  | wipe
  /-- WIPE on the degraded path with its latched effective rectangle. -/
  | wipeArea (area : Rect) (next : Nat)
  /-- PASS with its payload. -/
  | pass (payload : BitVec 12)
  /-- SUPERVISE with its function and arguments. -/
  | supervise (function : Supervise)
  /-- REPAINT. -/
  | repaint
  deriving DecidableEq, Repr

/-- One of the two channels: its FIFO oldest first (R48), order in progress (R51), context (R52), response state (R55)
and halt cause (R54). -/
structure Chan where
  fifo : List Word
  order : Option Order
  context : Context
  response : Response
  cause : HaltCause
  deriving DecidableEq, Repr

/-- A span (R2): its row-group, its box B, its on-set F, and whether it is a span of a degraded WIPE. -/
structure Span where
  row : Coord
  group : Group
  box : Cells
  on : Cells
  wipe : Bool
  deriving DecidableEq, Repr

/-- A granted span not yet rendered, with the channel that presented it (R5). -/
structure Held where
  channel : Channel
  span : Span
  deriving DecidableEq, Repr

/-- The raster engine, the shadow image and the glyph memory (R1, R5, R34, R35). The engine is FREE when `held` is none
and WAITING otherwise. -/
structure Engine where
  /-- The shadow image: key 32y + g, the cells of row-group (y, g) meant to be lit; unlisted is empty. -/
  shadow : List (Nat × Cells)
  /-- The glyph memory: address 16n + r, glyph row r of slot n, bit 7 glyph cell 0; unlisted is 0. -/
  glyphs : List Host.Cell
  /-- The lock set: bit `s` set when glyph set `s` is locked. -/
  lockSet : BitVec 4
  held : Option Held
  /-- The arbiter memory: the channel granted most recently. -/
  arbiter : Channel
  deriving DecidableEq, Repr

/-- Takeover (R104) and the line channel's supervision state (R52, R109, R110). -/
structure Supervision where
  takeover : Bool
  resumeAwaited : Bool
  area : Rect
  route : Route
  deriving DecidableEq, Repr

/-- The kinds of a strike of one row-group (R62). -/
inductive StrikeKind where
  | write | erase
  deriving DecidableEq, Repr

/-- A strike item (R62). -/
inductive StrikeItem where
  | strike (kind : StrikeKind) (row : Coord) (group : Group) (cells : Cells)
  | bulk
  deriving DecidableEq, Repr

/-- The producers of strike items (R65). -/
inductive Producer where
  | engine | scanner
  deriving DecidableEq, Repr

/-- The strike queue, oldest first, and its room turn (R63, R65). -/
structure Strikes where
  items : List StrikeItem
  turn : Producer
  deriving DecidableEq, Repr

/-- Supply states (R75). -/
inductive SupplyState where
  | low | settling | good
  deriving DecidableEq, Repr

/-- Panel states (R78). -/
inductive PanelState where
  | dark | priming | live
  deriving DecidableEq, Repr

/-- A sustain timing: a period and a requested dead time, in quarters (R85). -/
structure Timing where
  period : Nat
  dead : Nat
  deriving DecidableEq, Repr

/-- The cycle in progress (chapter 6): its place, in quarters from its cycle start, and the strike item that the issuer
drives in its address slot, if any (R70). -/
structure Cycle where
  place : Nat
  drive : Option StrikeItem
  deriving DecidableEq, Repr

/-- The supply monitor and the sustain generator (chapter 6). -/
structure Sustain where
  /-- The sustain supply at the sense input, in millivolts. -/
  supply : Nat
  supplyState : SupplyState
  /-- The settle timer: quarters left while it runs. -/
  settle : Option Nat
  enable : Bool
  panelState : PanelState
  pendingTiming : Timing
  effectiveTiming : Timing
  /-- The window divider count. -/
  divider : Nat
  /-- The cycle in progress; none while the sustain is stopped. -/
  cycle : Option Cycle
  deriving DecidableEq, Repr

/-- The kinds of a stale-row entry (R88). -/
inductive StaleKind where
  | coherent | blank | unknown
  deriving DecidableEq, Repr

/-- The row the restore scanner is restoring, its kind and its next group (R90). -/
structure Current where
  row : Coord
  kind : StaleKind
  next : Group
  deriving DecidableEq, Repr

/-- The restore scanner record (R90). -/
structure Scanner where
  active : Bool
  sweep : Coord
  current : Option Current
  deriving DecidableEq, Repr

/-- The coherence tracker (chapter 7). The stale-row table lists the stale rows; an unlisted row is COHERENT, so the stale
set is empty exactly when the list is. -/
structure Tracker where
  stale : List (Nat × StaleKind)
  scanner : Scanner
  deriving DecidableEq, Repr

/-- The panel the part drives, which it cannot read (section 0.1): the cells that show lit, keyed as the shadow image, and
how many times the sustain has been started (the model's own count, from which the free value of log entry 9 is drawn). -/
structure Panel where
  lit : List (Nat × Cells)
  starts : Nat
  deriving DecidableEq, Repr

/-- A touch cell (section 0.3). -/
structure TouchCell where
  tx : BitVec 4
  ty : BitVec 4
  deriving DecidableEq, Repr

/-- The touch state record (R113). -/
inductive TouchRecord where
  | idle
  | candidate (cell : TouchCell) (count : Nat)
  | held (cell : TouchCell) (candidate : Option (TouchCell × Nat)) (gone : Nat)
  deriving DecidableEq, Repr

/-- The touch scanner (chapter 9): the beam inputs as last sampled, the scan timer (quarters left; none while stopped) and
the touch state record. -/
structure Touch where
  horizontal : BitVec 16
  vertical : BitVec 16
  timer : Option Nat
  record : TouchRecord
  deriving DecidableEq, Repr

/-- An input record of a queue (R142); kind NONE is never queued. -/
inductive InputRecord where
  | touch (cell : TouchCell)
  | pass (payload : BitVec 12)
  deriving DecidableEq, Repr

/-- The receiver (R119): idle, within a character, or waiting for the line to go high after a low stop bit. -/
inductive Receiver where
  | idle | receiving | waitHigh
  deriving DecidableEq, Repr

/-- The kinds of frame the KP512 takes (R121). -/
inductive FrameKind where
  | orders | poll | clear
  deriving DecidableEq, Repr

/-- The reception record (R120): the frame's station and kind, its length once known, the data bytes still to come, the
running sum, and the high byte of a word whose low byte has not arrived (R122). -/
structure Reception where
  station : BitVec 5
  kind : FrameKind
  length : Option Nat
  bytesLeft : Nat
  sum : Byte
  high : Option Byte
  deriving DecidableEq, Repr

/-- The frame assembler (R120). -/
inductive Assembler where
  | hunt
  | length (record : Reception)
  | data (record : Reception)
  | check (record : Reception)
  deriving DecidableEq, Repr

/-- The reply state (R126), with the quarters left of the turnaround gap or of the sending, and the bytes sent. -/
inductive ReplyState where
  | idle
  | turnaround (left : Nat)
  | sending (bytes : List Byte) (left : Nat)
  deriving DecidableEq, Repr

/-- The line interface (chapter 10). -/
structure LineInterface where
  receiver : Receiver
  assembler : Assembler
  /-- The staging buffer, oldest word first. -/
  staging : List Word
  /-- The discard count, 0..15. -/
  discards : Nat
  roomFlag : Bool
  reply : ReplyState
  /-- The upstream queue, oldest first. -/
  upstream : List InputRecord
  overflow : Bool
  deriving DecidableEq, Repr

/-- The local word port (chapter 11). Flags and enables are numbered as in the EVENTS word (R142). -/
structure Port where
  /-- The local input queue, oldest first. -/
  input : List InputRecord
  overflow : Bool
  flags : BitVec 8
  enables : BitVec 8
  /-- The record-select value (R136). -/
  select : BitVec 4
  /-- The word the last INPUT or STATUS read returned on the data lines. -/
  data : Word
  deriving DecidableEq, Repr

/-- Line rates (R135). -/
inductive Rate where
  | bps1200 | bps2400 | bps4800 | bps9600
  deriving DecidableEq, Repr

/-- Noise rejection widths, 1/16 and 1/4 bit (R135). -/
inductive Noise where
  | sixteenth | quarter
  deriving DecidableEq, Repr

/-- Window dividers 1, 2 and 4 (R135). -/
inductive Divider where
  | one | two | four
  deriving DecidableEq, Repr

/-- Supply threshold pairs (R75). -/
inductive Pair where
  | a | b | c
  deriving DecidableEq, Repr

/-- Filter counts 2, 4 and 8 (R113). -/
inductive FilterCount where
  | two | four | eight
  deriving DecidableEq, Repr

/-- The effective copy of the station record (R136). `station` is none for no station. -/
structure Effective where
  station : Option (Fin 31)
  rate : Rate
  noise : Noise
  period : Nat
  dead : Nat
  divider : Divider
  pair : Pair
  filter : FilterCount
  route : Route
  deriving DecidableEq, Repr

/-- A programming operation (R138). -/
inductive Program where
  | write (field : BitVec 4) (value : Byte)
  | commit (field : BitVec 4)
  | lock
  deriving DecidableEq, Repr

/-- A running programming operation and its quarters left. -/
structure Programming where
  operation : Program
  left : Nat
  deriving DecidableEq, Repr

/-- The station record (chapter 12): cell values and committed marks by field number, the lock mark, lock-in-effect, the
effective copy and the programming operation that runs, if any (record busy). -/
structure Station where
  cells : List (Nat × Byte)
  committed : List (Nat × Bool)
  lockMark : Bool
  lockInEffect : Bool
  effective : Effective
  programming : Option Programming
  deriving DecidableEq, Repr

/-- What the event in progress has only come to, where another event that falls together with it is taken before its grants.
The model's own. -/
inductive Opening where
  /-- Nothing of that kind. -/
  | shut
  /-- A RESUME that returned the local channel to ACCEPT: a TAKE may come with it (R108, log entry 22). -/
  | resumed
  /-- Places in a full record queue have become free: a press may come with it (R59, R117, log entry 10). -/
  | freed
  deriving DecidableEq, Repr

/-- What held before the event in progress: the local channel idle, its free count 32 or more, the panel settled. The
flags DRAINED, SPACE and SETTLED are raised by comparison with it when the event ends (R60, R132, R74). `opening` is what the
event has only come to. -/
structure Before where
  idle : Bool
  roomy : Bool
  settled : Bool
  opening : Opening
  deriving DecidableEq, Repr

/-- The whole machine. -/
structure State where
  /-- The commands waiting, first in, first out. The model's own. -/
  pending : List Instr
  engine : Engine
  lineChan : Chan
  localChan : Chan
  supervision : Supervision
  strikes : Strikes
  sustain : Sustain
  tracker : Tracker
  panel : Panel
  touch : Touch
  lineIf : LineInterface
  port : Port
  station : Station
  /-- The level of the terminal reset input: true while asserted. -/
  terminalReset : Bool
  /-- The event in progress, while the part's own steps of it are still due. The model's own. -/
  event : Option Before
  deriving DecidableEq, Repr

/-- The whole panel, 0, 0, 511, 511 (R52). -/
def Rect.whole : Rect := { xLo := 0, yLo := 0, xHi := 511, yHi := 511 }

/-- The default drawing context (R52). -/
def Context.initial : Context :=
  { position := { x := 0, y := 0 }, penFresh := true, mode := .write, size := .one, margin := 0, clip := Rect.whole }

/-- A channel after reset and after its clear (R58). -/
def Chan.initial : Chan :=
  { fifo := [], order := none, context := Context.initial, response := .accept, cause := .code }

/-- Every row BLANK (R88). -/
def allBlank : List (Nat × StaleKind) := sparseTable .coherent 512 fun _ => .blank

/-- The effective copy of a record with no field committed (R135). -/
def Effective.initial : Effective :=
  { station := none, rate := .bps1200, noise := .sixteenth, period := 80, dead := 4, divider := .one, pair := .b,
    filter := .four, route := .toLine }

/-- The machine at the end of power-on reset of a new part (R139, R135), the sustain supply at 0 V. -/
def State.reset : State where
  pending := []
  engine := { shadow := [], glyphs := [], lockSet := 0, held := none, arbiter := .localCh }
  lineChan := Chan.initial
  localChan := Chan.initial
  supervision := { takeover := false, resumeAwaited := false, area := Rect.whole, route := .toLine }
  strikes := { items := [], turn := .scanner }
  sustain :=
    { supply := 0, supplyState := .low, settle := none, enable := true, panelState := .dark,
      pendingTiming := { period := 80, dead := 4 }, effectiveTiming := { period := 80, dead := 4 }, divider := 0,
      cycle := none }
  tracker := { stale := allBlank, scanner := { active := false, sweep := 0, current := none } }
  panel := { lit := [], starts := 0 }
  touch := { horizontal := 0, vertical := 0, timer := some Config.scanQuarters, record := .idle }
  lineIf :=
    { receiver := .idle, assembler := .hunt, staging := [], discards := 0, roomFlag := false, reply := .idle,
      upstream := [], overflow := false }
  port := { input := [], overflow := false, flags := 0, enables := 0, select := 0, data := 0 }
  station :=
    { cells := [], committed := [], lockMark := false, lockInEffect := false, effective := Effective.initial,
      programming := none }
  terminalReset := false
  event := none

end Sys2Proof.Machine
end

