-- ==== Sys2Proof/Machine/Operands.lean ====
section
/-! DEFINITION. The bit layouts of chapter 13: order words, argument and data words, local port words, record words,
characters and frames. -/

namespace Sys2Proof.Machine

/-- The orders as the decoder tells them from head words (R49); SUPERVISE by its function (R102). -/
inductive OrderKind where
  | nop | move | dot | line | block | raster | text | newline | margin | mode | glyph | wipe | clip | pass | repaint
  | take | give | area | lock | route | timing
  deriving DecidableEq, Repr

/-- The order code of a head word, bits 15..12 (R140). -/
def headCode (w : Word) : Nat := w.toNat / 4096

/-- Order code 14, SUPERVISE (R140). -/
def isSupervise (w : Word) : Bool := headCode w == 14

/-- The SUPERVISE function of bits 3..0, none for 6..15 (R102, R140). -/
def superviseKind (w : Word) : Option OrderKind :=
  match w.toNat % 16 with
  | 0 => some .take
  | 1 => some .give
  | 2 => some .area
  | 3 => some .lock
  | 4 => some .route
  | 5 => some .timing
  | _ => none

/-- The order a head word names (R140); none for a SUPERVISE of an unassigned function. -/
def headKind (w : Word) : Option OrderKind :=
  match headCode w with
  | 0 => some .nop
  | 1 => some .move
  | 2 => some .dot
  | 3 => some .line
  | 4 => some .block
  | 5 => some .raster
  | 6 => some .text
  | 7 => some .newline
  | 8 => some .margin
  | 9 => some .mode
  | 10 => some .glyph
  | 11 => some .wipe
  | 12 => some .clip
  | 13 => some .pass
  | 14 => superviseKind w
  | _ => some .repaint

/-- The fixed argument words of an order (R49, R102). -/
def argumentCount : OrderKind → Nat
  | .move | .dot | .line | .block | .raster => 2
  | .clip | .area => 4
  | .lock | .route => 1
  | .timing => 2
  | .nop | .text | .newline | .margin | .mode | .glyph | .wipe | .pass | .repaint | .take | .give => 0

/-- Whether the argument words are coordinate words, which are checked (R53). -/
def coordinateArguments : OrderKind → Bool
  | .move | .dot | .line | .block | .raster | .clip | .area => true
  | .lock | .route | .timing => false
  | .nop | .text | .newline | .margin | .mode | .glyph | .wipe | .pass | .repaint | .take | .give => false

/-- A coordinate word is malformed when any of bits 15..9 is set (R141). -/
def badCoordinate (w : Word) : Bool := 512 ≤ w.toNat

/-- The value of a coordinate word, bits 8..0 (R140). -/
def coordOf (w : Word) : Coord := ⟨w.toNat % 512, Nat.mod_lt _ (by decide)⟩

/-- The `i`-th argument word as a coordinate. -/
def coordAt (args : List Word) (i : Nat) : Coord := coordOf (args.getD i 0)

/-- The point of argument words 0 and 1, x then y. -/
def pointOf (args : List Word) : Point := { x := coordAt args 0, y := coordAt args 1 }

/-- A RASTER width or height: the word's value, or 512 when it is 0 (R26). -/
def extentOf (w : Word) : Nat := if w.toNat % 512 = 0 then 512 else w.toNat % 512

/-- The mode field of a MODE head word, bits 1..0 (R140). -/
def modeOf (w : Word) : Mode :=
  match w.toNat % 4 with
  | 0 => .write
  | 1 => .erase
  | 2 => .inverse
  | _ => .rewrite

/-- The size field of a MODE head word, bit 2 (R140). -/
def sizeFieldOf (w : Word) : Size := if w.getLsbD 2 then .two else .one

/-- The count of a TEXT head word, bits 7..0 (R140). -/
def countOf (w : Word) : Nat := w.toNat % 256

/-- The slot of a GLYPH head word, bits 7..0 (R140). -/
def slotOf (w : Word) : Byte := w.extractLsb' 0 8

/-- The payload of a PASS head word, bits 11..0 (R140). -/
def payloadOf (w : Word) : BitVec 12 := w.extractLsb' 0 12

/-- The high byte of a word, bits 15..8. -/
def highByte (w : Word) : Byte := w.extractLsb' 8 8

/-- The low byte of a word, bits 7..0. -/
def lowByte (w : Word) : Byte := w.extractLsb' 0 8

/-- A word of two bytes, high byte first (R143). -/
def wordOf (hi lo : Byte) : Word := hi ++ lo

/-- The set mask of a LOCK argument word, bits 3..0 (R140). -/
def setMaskOf (w : Word) : BitVec 4 := w.extractLsb' 0 4

/-- The code of a touch route, two bits (R135, R140). -/
def routeOfCode : Nat → Route
  | 0 => .noMaster
  | 1 => .toLine
  | 2 => .toLocal
  | _ => .toBoth

/-- The value of a ROUTE argument word, bits 1..0 (R140). -/
def routeOf (w : Word) : Route := routeOfCode (w.toNat % 4)

/-- The SUPERVISE function and argument values latched at the order's start (R102). -/
def superviseOf (kind : OrderKind) (args : List Word) : Supervise :=
  match kind with
  | .give => .give
  | .area => .area (coordAt args 0) (coordAt args 1) (coordAt args 2) (coordAt args 3)
  | .lock => .lock (setMaskOf (args.getD 0 0))
  | .route => .route (routeOf (args.getD 0 0))
  | .timing => .timing (args.getD 0 0) (args.getD 1 0)
  | _ => .take

/-- The order kind of a SUPERVISE function. -/
def superviseOrder : Supervise → OrderKind
  | .take => .take
  | .give => .give
  | .area _ _ _ _ => .area
  | .lock _ => .lock
  | .route _ => .route
  | .timing _ _ => .timing

/-- The order kind of an order-in-progress record. -/
def orderKind : Order → OrderKind
  | .dot _ _ => .dot
  | .line _ _ _ => .line
  | .block _ _ _ => .block
  | .raster _ _ _ _ _ _ => .raster
  | .text _ _ _ _ _ => .text
  | .glyph _ => .glyph
  | .wipe => .wipe
  | .wipeArea _ _ => .wipe
  | .pass _ => .pass
  | .supervise f => superviseOrder f
  | .repaint => .repaint

/-- The flag set of an EVENT-ACK or EVENT-ENABLE argument, bits 7..0 (R142). -/
def flagSetOf (argument : BitVec 12) : BitVec 8 := argument.extractLsb' 0 8

/-- The field of a RECORD control word, bits 11..8 (R142). -/
def fieldOf (argument : BitVec 12) : BitVec 4 := argument.extractLsb' 8 4

/-- The value of a RECORD-WRITE control word, bits 7..0 (R142). -/
def valueOf (argument : BitVec 12) : Byte := argument.extractLsb' 0 8

/-- An input record as its 16-bit word: kind in bits 15..12, payload in bits 11..0, a TOUCH payload being tx in bits 7..4
and ty in bits 3..0 (R142). -/
def recordWord : InputRecord → Word
  | .touch c => 1#4 ++ (0#4 ++ (c.tx ++ c.ty))
  | .pass p => 2#4 ++ p

/-- The codes of the halt causes (R142, R143). -/
def causeCode : HaltCause → Nat
  | .code => 0
  | .argument => 1
  | .privilege => 2
  | .locked => 3

/-- The codes of the local state (R142). -/
def responseCode : Response → Nat
  | .accept => 0
  | .hold => 1
  | .halted => 2

/-- The codes of the panel state (R142, R143). -/
def panelCode : PanelState → Nat
  | .dark => 0
  | .priming => 1
  | .live => 2

/-- The station of an address byte, bits 7..3 (R143). -/
def stationOf (b : Byte) : BitVec 5 := b.extractLsb' 3 5

/-- The kind of an address byte, bits 2..0, for the kinds the KP512 can take: ORDERS 1, POLL 2, CLEAR 3 (R143). -/
def frameKindOf (b : Byte) : Option FrameKind :=
  match b.toNat % 8 with
  | 1 => some .orders
  | 2 => some .poll
  | 3 => some .clear
  | _ => none

/-- The address byte of a reply of a station: kind REPLY, 4 (R143). -/
def replyAddress (station : BitVec 5) : Byte := station ++ 4#3

/-- The two bytes of a word as sent, bits 15..8 first (R143). -/
def wordBytes (w : Word) : List Byte := [highByte w, lowByte w]

/-- The sum of bytes modulo 256 (section 10.2). -/
def byteSum (bytes : List Byte) : Byte := bytes.foldl (· + ·) 0

/-- The check byte that makes the sum of a frame 0 modulo 256 (R143). -/
def checkByte (bytes : List Byte) : Byte := 0 - byteSum bytes

/-- The count of 1s of a byte. -/
def onesOf (b : Byte) : Nat := ((List.range 8).filter fun k => b.getLsbD k).length

/-- The parity bit that makes the count of 1s among data, mark and parity odd (R143). -/
def parityOf (data : Byte) (mark : Bool) : Bool := (onesOf data + mark.toNat) % 2 == 0

/-- A character as received: its data byte, mark bit, parity bit and the level of its stop bit (R119). -/
structure LineChar where
  data : Byte
  mark : Bool
  parity : Bool
  stop : Bool
  deriving DecidableEq, Repr

/-- The character that twelve sampled bit times carry: the start bit, data bits 0 to 7, the mark bit, the parity bit, the
stop bit (R143). The level sampled in the start bit decides nothing (R119). -/
def receivedChar (samples : BitVec 12) : LineChar :=
  { data := samples.extractLsb' 1 8, mark := samples.getLsbD 9, parity := samples.getLsbD 10, stop := samples.getLsbD 11 }

/-- A character error (R119): an even count of 1s among data, mark and parity bits, or a low stop bit. -/
def characterError (c : LineChar) : Bool :=
  (onesOf c.data + c.mark.toNat + c.parity.toNat) % 2 == 0 || !c.stop

/-- The twelve levels of a character in the order sent: start bit, data bits least significant first, mark, parity, stop
(R143). -/
def characterBits (data : Byte) (mark : Bool) : List Bool :=
  false :: (List.range 8).map (fun k => data.getLsbD k) ++ [mark, parityOf data mark, true]

/-- Decoding of a line rate code (R135). -/
def rateOf (cell : Byte) : Rate :=
  match cell.toNat % 4 with
  | 0 => .bps1200
  | 1 => .bps2400
  | 2 => .bps4800
  | _ => .bps9600

/-- Decoding of the window divider: codes 0, 1, 2 are 1, 2, 4 and code 3 is taken as 4 (R135). -/
def dividerOf (cell : Byte) : Divider :=
  match cell.toNat % 4 with
  | 0 => .one
  | 1 => .two
  | _ => .four

/-- Decoding of the supply pair: A, B, C, and code 3 is taken as C (R135). -/
def pairOf (cell : Byte) : Pair :=
  match cell.toNat % 4 with
  | 0 => .a
  | 1 => .b
  | _ => .c

/-- Decoding of the touch filter: 2, 4, 8, and code 3 is taken as 8 (R135). -/
def filterOf (cell : Byte) : FilterCount :=
  match cell.toNat % 4 with
  | 0 => .two
  | 1 => .four
  | _ => .eight

/-- A period clamped into 40..160 quarters (R85, R135). -/
def clampPeriod (n : Nat) : Nat := max 40 (min 160 n)

/-- A dead time clamped into 1..16 quarters (R85). -/
def clampDead (n : Nat) : Nat := max 1 (min 16 n)

/-- Decoding of the station number: low five bits, 31 being no station (R135). -/
def stationNumberOf (cell : Byte) : Option (Fin 31) :=
  if h : cell.toNat % 32 < 31 then some ⟨cell.toNat % 32, h⟩ else none

/-- The effective copy decoded from cell values and committed marks (R135). -/
def effectiveOf (cells : List (Nat × Byte)) (committed : List (Nat × Bool)) : Effective :=
  let cell (f : Nat) : Option Byte :=
    if sparseGet false committed f then some (sparseGet 0 cells f) else none
  { station := (cell 0).bind stationNumberOf
    rate := ((cell 1).map rateOf).getD .bps1200
    noise := ((cell 2).map fun b => if b.getLsbD 0 then Noise.quarter else Noise.sixteenth).getD .sixteenth
    period := ((cell 3).map fun b => clampPeriod b.toNat).getD 80
    dead := ((cell 4).map fun b => b.toNat % 16 + 1).getD 4
    divider := ((cell 5).map dividerOf).getD .one
    pair := ((cell 6).map pairOf).getD .b
    filter := ((cell 7).map filterOf).getD .four
    route := ((cell 8).map fun b => routeOfCode (b.toNat % 4)).getD .toLine }

/-- The codes of the effective parts (R136). -/
def rateCode : Rate → Nat
  | .bps1200 => 0
  | .bps2400 => 1
  | .bps4800 => 2
  | .bps9600 => 3

/-- The codes of the touch routes (R136, R140). -/
def routeCode : Route → Nat
  | .noMaster => 0
  | .toLine => 1
  | .toLocal => 2
  | .toBoth => 3

/-- The effective part of the RECORD word for field `f` 0..8 (R136). -/
def effectivePart (e : Effective) (f : Nat) : Nat :=
  match f with
  | 0 => (e.station.map Fin.val).getD 31
  | 1 => rateCode e.rate
  | 2 => match e.noise with | .sixteenth => 0 | .quarter => 1
  | 3 => e.period - 40
  | 4 => e.dead - 1
  | 5 => match e.divider with | .one => 0 | .two => 1 | .four => 2
  | 6 => match e.pair with | .a => 0 | .b => 1 | .c => 2
  | 7 => match e.filter with | .two => 0 | .four => 1 | .eight => 2
  | 8 => routeCode e.route
  | _ => 0

/-- The RECORD word of a cell part, committed part and effective part (R142). -/
def recordFieldWord (cell : Byte) (committed : Bool) (effective : Nat) : Word :=
  BitVec.ofNat 7 effective ++ (BitVec.ofBool committed ++ cell)

/-- The value of the window divider (R81). -/
def dividerValue : Divider → Nat
  | .one => 1
  | .two => 2
  | .four => 4

/-- The filter count N (R113). -/
def filterValue : FilterCount → Nat
  | .two => 2
  | .four => 4
  | .eight => 8

/-- The rejection width in sixteenths of a bit time (R119). -/
def rejectionWidth : Noise → Nat
  | .sixteenth => 1
  | .quarter => 4

/-- A character time in quarters: 10, 5, 2.5 or 1.25 ms (R119). -/
def characterQuarters : Rate → Nat
  | .bps1200 => 40000
  | .bps2400 => 20000
  | .bps4800 => 10000
  | .bps9600 => 5000

/-- The droop threshold in millivolts (R75). -/
def droopOf : Pair → Nat
  | .a => 140000
  | .b => 160000
  | .c => 180000

/-- The recover threshold in millivolts (R75). -/
def recoverOf : Pair → Nat
  | .a => 150000
  | .b => 170000
  | .c => 190000

end Sys2Proof.Machine
end

