-- ==== Sys2Proof/Machine/Figures.lean ====
section
/-! DEFINITION. Figures and characters: the cells each order covers, its spans in span order, what a channel's record
becomes at the grant of a span and at its render (chapters 2 and 3). All of it concerns one channel alone. -/

namespace Sys2Proof.Machine

/-- A number as a coordinate; every use is of a number below 512. -/
def coord (n : Nat) : Coord := ⟨n % 512, Nat.mod_lt _ (by decide)⟩

/-- A number as a group; every use is of a number below 32. -/
def group (n : Nat) : Group := ⟨n % 32, Nat.mod_lt _ (by decide)⟩

/-- The set of the cells `k` below `n` with `p k`. -/
def cellsBelow (p : Nat → Bool) : Nat → Cells
  | 0 => 0
  | n + 1 => cellsBelow p n ||| (if p n then BitVec.twoPow 16 n else 0)

/-- The set of the cells 0..15 with `p`. -/
def cellsOf (p : Nat → Bool) : Cells := cellsBelow p 16

/-- The cells of group `g` whose columns lie in `lo..hi` (R25). -/
def columnCells (g lo hi : Nat) : Cells := cellsOf fun k => decide (lo ≤ 16 * g + k) && decide (16 * g + k ≤ hi)

/-- The rectangle of two corners given in either order (section 0.6, Ranges). -/
def rectOf (x1 y1 x2 y2 : Coord) : Rect :=
  { xLo := if x1 ≤ x2 then x1 else x2
    yLo := if y1 ≤ y2 then y1 else y2
    xHi := if x1 ≤ x2 then x2 else x1
    yHi := if y1 ≤ y2 then y2 else y1 }

/-- The intersection of two rectangles, none when it is empty (R30). -/
def rectMeet (a b : Rect) : Option Rect :=
  let xLo := if a.xLo ≤ b.xLo then b.xLo else a.xLo
  let yLo := if a.yLo ≤ b.yLo then b.yLo else a.yLo
  let xHi := if a.xHi ≤ b.xHi then a.xHi else b.xHi
  let yHi := if a.yHi ≤ b.yHi then a.yHi else b.yHi
  if xLo ≤ xHi ∧ yLo ≤ yHi then some { xLo, yLo, xHi, yHi } else none

/-! ### LINE -/

/-- The distance of two coordinates. -/
def distance (a b : Nat) : Nat := (a - b) + (b - a)

/-- The step count n of a line: the difference along its major axis (R21). -/
def lineSteps (p q : Point) : Nat := max (distance p.x q.x) (distance p.y q.y)

/-- A coordinate `off` steps from `a` toward `b` (R21). -/
def stepToward (a b off : Nat) : Nat := if a ≤ b then a + off else a - off

/-- The minor offset of step `i` (R21): halves are rounded up (R22). -/
def minorOffset (i minor major : Nat) : Nat := if major = 0 then 0 else (2 * i * minor + major) / (2 * major)

/-- The cell (column, row) of step `i` of the walk from `p` to `q` (R21). -/
def lineCell (p q : Point) (i : Nat) : Nat × Nat :=
  let dx := distance p.x q.x
  let dy := distance p.y q.y
  if dy ≤ dx then (stepToward p.x q.x i, stepToward p.y q.y (minorOffset i dy dx))
  else (stepToward p.x q.x (minorOffset i dx dy), stepToward p.y q.y i)

/-- The run of consecutive steps from `i` in row `y` and group `g`: the step after the run, and the run's cells (R24). A
run has at most 16 steps, so `fuel` 16 follows any run to its end. -/
def lineRun (p q : Point) (y g : Nat) : (fuel i : Nat) → Cells → Nat × Cells
  | 0, i, acc => (i, acc)
  | fuel + 1, i, acc =>
    let c := lineCell p q i
    if i ≤ lineSteps p q ∧ c.2 = y ∧ c.1 / 16 = g then
      lineRun p q y g fuel (i + 1) (acc ||| BitVec.twoPow 16 (c.1 % 16))
    else (i, acc)

/-- The span of a LINE that begins at step `i`, and the step that begins the next (R24). -/
def lineSpan (p q : Point) (i : Nat) : Span × Nat :=
  let c := lineCell p q i
  let run := lineRun p q c.2 (c.1 / 16) 16 i 0
  ({ row := coord c.2, group := group (c.1 / 16), box := run.2, on := run.2, wipe := false }, run.1)

/-! ### BLOCK and the degraded WIPE -/

/-- The groups that columns `lo..hi` fall in. -/
def groupsAcross (lo hi : Nat) : Nat := hi / 16 - lo / 16 + 1

/-- The number of spans of a rectangle (R25). -/
def rectSpans (r : Rect) : Nat := (r.yHi.val - r.yLo.val + 1) * groupsAcross r.xLo r.xHi

/-- Span number `n` of a rectangle: rows from the top down, groups from left to right (R25). -/
def rectSpan (r : Rect) (wipe : Bool) (n : Nat) : Span :=
  let across := groupsAcross r.xLo r.xHi
  let g := r.xLo.val / 16 + n % across
  let cells := columnCells g r.xLo r.xHi
  { row := coord (r.yHi.val - n / across), group := group g, box := cells, on := cells, wipe := wipe }

/-- The rectangle of a BLOCK (R25). -/
def blockRect (p q : Point) : Rect := rectOf p.x p.y q.x q.y

/-! ### RASTER -/

/-- Data words of one image row: the width over 16, rounded up (R26). -/
def rasterWords (width : Nat) : Nat := (width + 15) / 16

/-- The last panel column of the image (R28). -/
def rasterRight (start : Point) (width : Nat) : Nat := min (start.x.val + width - 1) 511

/-- The spans of one drawn image row (R28). -/
def rasterSpans (start : Point) (width : Nat) : Nat := groupsAcross start.x (rasterRight start width)

/-- Whether image row `image` lies on the panel (R26, R29). -/
def rasterDrawn (start : Point) (image : Nat) : Bool := image ≤ start.y.val

/-- The data value of image column `j` of a row's data words: the most significant bit is leftmost (R27). -/
def rasterBit (words : List Word) (j : Nat) : Bool := (words.getD (j / 16) 0).getLsbD (15 - j % 16)

/-- Span number `n` of image row `image` (R28). -/
def rasterSpan (start : Point) (width image n : Nat) (words : List Word) : Span :=
  let g := start.x.val / 16 + n
  let box := columnCells g start.x (rasterRight start width)
  { row := coord (start.y.val - image), group := group g, box := box
    on := cellsOf fun k => box.getLsbD k && rasterBit words (16 * g + k - start.x.val), wipe := false }

/-! ### TEXT -/

/-- The advance, which is also the character box's width (R41). -/
def advanceOf : Size → Nat
  | .one => 8
  | .two => 16

/-- The pitch, which is also the character box's height (R41). -/
def pitchOf : Size → Nat
  | .one => 16
  | .two => 32

/-- The panel cells one glyph cell takes along each axis (R42). -/
def scaleOf : Size → Nat
  | .one => 1
  | .two => 2

/-- The last panel column of a character's box (R42). -/
def charRight (size : Size) (place : Point) : Nat := min (place.x.val + advanceOf size - 1) 511

/-- The top panel row of a character's box (R42). -/
def charTop (size : Size) (place : Point) : Nat := min (place.y.val + pitchOf size - 1) 511

/-- The number of spans of a character (R42). -/
def charSpans (size : Size) (place : Point) : Nat :=
  (charTop size place - place.y.val + 1) * groupsAcross place.x (charRight size place)

/-- Whether the latched rows light panel cell (x, y) of the box placed at `place`: glyph row 0 is the top row, glyph cell 0
the leftmost, which is bit 7 of its row (R36, R42). -/
def glyphLit (size : Size) (place : Point) (rows : List Byte) (x y : Nat) : Bool :=
  let r := (place.y.val + pitchOf size - 1 - y) / scaleOf size
  let c := (x - place.x.val) / scaleOf size
  (rows.getD r 0).getLsbD (7 - c)

/-- Span number `n` of a character (R42). -/
def charSpan (size : Size) (place : Point) (rows : List Byte) (n : Nat) : Span :=
  let across := groupsAcross place.x (charRight size place)
  let y := charTop size place - n / across
  let g := place.x.val / 16 + n % across
  let box := columnCells g place.x (charRight size place)
  { row := coord y, group := group g, box := box
    on := cellsOf fun k => box.getLsbD k && glyphLit size place rows (16 * g + k) y, wipe := false }

/-- Down one pitch, with 512 added when the result is negative (R44, R46). -/
def pitchDown (size : Size) (y : Coord) : Coord :=
  if pitchOf size ≤ y.val then coord (y.val - pitchOf size) else coord (y.val + 512 - pitchOf size)

/-- The text cursor after a character: advanced, or wrapped to the margin of the next text line (R44). -/
def advanceCursor (c : Context) (place : Point) : Point :=
  if 512 ≤ place.x.val + advanceOf c.size then { x := c.margin, y := pitchDown c.size place.y }
  else { x := coord (place.x.val + advanceOf c.size), y := place.y }

/-- The record after the grant of span `n` of a character placed at `place`: at the last span the cursor advances (R44). -/
def textGranted (c : Context) (left : Nat) (place : Point) (pendingCode : Option Byte) (latch : Latch) (n : Nat) : Order :=
  if n + 1 < charSpans c.size place then .text left place pendingCode (some latch) (some (n + 1))
  else .text left (advanceCursor c place) pendingCode (some latch) none

/-- The code of the next character, the pending code after it, and the FIFO after it (R40): the pending code, or the high
byte of the front word, whose low byte is kept when a second character remains. -/
def nextCode (left : Nat) (pendingCode : Option Byte) (fifo : List Word) : Option (Byte × Option Byte × List Word) :=
  match pendingCode with
  | some code => some (code, none, fifo)
  | none =>
    match fifo with
    | [] => none
    | w :: rest => some (highByte w, if 2 ≤ left then some (lowByte w) else none, rest)

/-! ### The next span of an order, its grant and its render -/

/-- The span an order presents next, with the channel as its grant leaves it: the record advanced and the words of the
piece out of the FIFO (R4, R28, R40, R43, R51). None when no span is ready. `rowsOf` reads a glyph slot. -/
def formSpan (rowsOf : Byte → List Byte) (c : Chan) : Option (Span × Chan) :=
  match c.order with
  | some (.dot cell false) =>
    let cells := BitVec.twoPow 16 (cell.x.val % 16)
    some ({ row := cell.y, group := group (cell.x.val / 16), box := cells, on := cells, wipe := false },
      { c with order := some (.dot cell true) })
  | some (.line p q i) =>
    if i ≤ lineSteps p q then
      some ((lineSpan p q i).1, { c with order := some (.line p q (lineSpan p q i).2) })
    else none
  | some (.block p q n) =>
    if n < rectSpans (blockRect p q) then
      some (rectSpan (blockRect p q) false n, { c with order := some (.block p q (n + 1)) })
    else none
  | some (.wipeArea r n) =>
    if n < rectSpans r then some (rectSpan r true n, { c with order := some (.wipeArea r (n + 1)) }) else none
  | some (.raster p w left image n (some words)) =>
    if n < rasterSpans p w then
      some (rasterSpan p w image n words, { c with order := some (.raster p w left image (n + 1) (some words)) })
    else none
  | some (.raster p w left image _ none) =>
    if left ≠ 0 ∧ rasterDrawn p image ∧ rasterWords w ≤ c.fifo.length then
      let words := c.fifo.take (rasterWords w)
      some (rasterSpan p w image 0 words,
        { c with fifo := c.fifo.drop (rasterWords w), order := some (.raster p w (left - 1) image 1 (some words)) })
    else none
  | some (.text left place pendingCode (some latch) (some n)) =>
    some (charSpan c.context.size place latch.rows n, { c with order := some (textGranted c.context left place pendingCode latch n) })
  | some (.text left place pendingCode none _) =>
    if left = 0 then none
    else
      match nextCode left pendingCode c.fifo with
      | none => none
      | some (code, kept, fifo) =>
        let latch : Latch := { code := code, rows := rowsOf code }
        some (charSpan c.context.size place latch.rows 0,
          { c with fifo := fifo, order := some (textGranted c.context (left - 1) place kept latch 0) })
  | _ => none

/-- The channel after the render of the span granted last: the order completes at the render of its last span, with the
position and pen fresh of R17 and R45; a RASTER row or a TEXT character may end (R29, R43, R44). -/
def spanRendered (c : Chan) : Chan :=
  match c.order with
  | some (.dot cell true) => { c with order := none, context := { c.context with position := cell, penFresh := false } }
  | some (.line p q i) =>
    if i ≤ lineSteps p q then c
    else { c with order := none, context := { c.context with position := q, penFresh := false } }
  | some (.block p q n) => if n < rectSpans (blockRect p q) then c else { c with order := none }
  | some (.wipeArea r n) => if n < rectSpans r then c else { c with order := none }
  | some (.raster p w left image n (some _)) =>
    if n < rasterSpans p w then c
    else if left = 0 then { c with order := none }
    else { c with order := some (.raster p w left (image + 1) 0 none) }
  | some (.text left place pendingCode (some _) none) =>
    if left = 0 then { c with order := none, context := { c.context with position := place, penFresh := true } }
    else { c with order := some (.text left place pendingCode none none), context := { c.context with position := place } }
  | _ => c

/-- Whether the channel has come to a dropped RASTER row whose words are all present (R29). -/
def droppedRowReady (c : Chan) : Bool :=
  match c.order with
  | some (.raster p w left image _ none) =>
    left ≠ 0 && !rasterDrawn p image && decide (rasterWords w ≤ c.fifo.length)
  | _ => false

/-- The handling of a dropped RASTER row: its words leave the FIFO, and the order may complete (R29). -/
def droppedRowHandled (c : Chan) : Chan :=
  match c.order with
  | some (.raster p w left image _ none) =>
    { c with
      fifo := c.fifo.drop (rasterWords w)
      order := if left ≤ 1 then none else some (.raster p w (left - 1) (image + 1) 0 none) }
  | _ => c

end Sys2Proof.Machine
end

