-- ==== Sys2Proof/Machine/Update.lean ====
section
/-! DEFINITION. The state with one block replaced: the only ways a meaning changes `State`. -/

namespace Sys2Proof.Machine

/-- The state with another command queue. -/
def State.withPending (s : State) (q : List Instr) : State := { s with pending := q }
/-- The state with another raster engine. -/
def State.withEngine (s : State) (e : Engine) : State := { s with engine := e }
/-- The state with another line channel. -/
def State.withLineChan (s : State) (c : Chan) : State := { s with lineChan := c }
/-- The state with another local channel. -/
def State.withLocalChan (s : State) (c : Chan) : State := { s with localChan := c }
/-- The state with another supervision state. -/
def State.withSupervision (s : State) (v : Supervision) : State := { s with supervision := v }
/-- The state with another strike queue. -/
def State.withStrikes (s : State) (q : Strikes) : State := { s with strikes := q }
/-- The state with another sustain generator and supply monitor. -/
def State.withSustain (s : State) (g : Sustain) : State := { s with sustain := g }
/-- The state with another coherence tracker. -/
def State.withTracker (s : State) (t : Tracker) : State := { s with tracker := t }
/-- The state with another panel. -/
def State.withPanel (s : State) (p : Panel) : State := { s with panel := p }
/-- The state with another touch scanner. -/
def State.withTouch (s : State) (t : Touch) : State := { s with touch := t }
/-- The state with another line interface. -/
def State.withLineIf (s : State) (l : LineInterface) : State := { s with lineIf := l }
/-- The state with another local word port. -/
def State.withPort (s : State) (p : Port) : State := { s with port := p }
/-- The state with another station record. -/
def State.withStation (s : State) (r : Station) : State := { s with station := r }
/-- The state with another level of the terminal reset input. -/
def State.withTerminalReset (s : State) (b : Bool) : State := { s with terminalReset := b }
/-- The state with another event in progress. -/
def State.withEvent (s : State) (e : Option Before) : State := { s with event := e }

/-- The channel named. -/
def State.chan (s : State) : Channel → Chan
  | .lineCh => s.lineChan
  | .localCh => s.localChan

/-- The state with the channel named replaced. -/
def State.withChan (s : State) (ch : Channel) (c : Chan) : State :=
  match ch with
  | .lineCh => s.withLineChan c
  | .localCh => s.withLocalChan c

end Sys2Proof.Machine
end

