-- ==== Sys2Proof/Machine/Flags.lean ====
section
/-! DEFINITION. The event flags and what they are computed from: idleness, free counts, the settled condition, the
attention output, and the words in which the part reports its state. -/

namespace Sys2Proof.Machine

/-- The eight event flags (R132). -/
inductive EventFlag where
  | space | refused | drained | input | takeover | panel | halt | settled
  deriving DecidableEq, Repr

/-- The bit of a flag in EVENTS (R142). -/
def flagBit : EventFlag → Nat
  | .space => 0
  | .refused => 1
  | .drained => 2
  | .input => 3
  | .takeover => 4
  | .panel => 5
  | .halt => 6
  | .settled => 7

/-- Raise a flag: set it; a flag already set stays set (R132). -/
def raiseFlag (f : EventFlag) (s : State) : State :=
  s.withPort { s.port with flags := s.port.flags ||| BitVec.twoPow 8 (flagBit f) }

/-- Raise a flag when `b` holds. -/
def raiseWhen (b : Bool) (f : EventFlag) (s : State) : State := if b then raiseFlag f s else s

/-- Whether a flag is set. -/
def flagSet (f : EventFlag) (s : State) : Bool := s.port.flags.getLsbD (flagBit f)

/-- A channel is idle when its FIFO is empty and it has no order in progress (R60). -/
def chanIdle (c : Chan) : Bool := c.fifo.isEmpty && c.order.isNone

/-- The capacity of a channel's FIFO (R48). -/
def fifoCapacity : Channel → Nat
  | .lineCh => Config.lineFifoCapacity
  | .localCh => Config.localFifoCapacity

/-- The free count of a channel's FIFO (R48). -/
def fifoFree (s : State) (ch : Channel) : Nat := fifoCapacity ch - (s.chan ch).fifo.length

/-- The free count of the strike queue (R63). -/
def strikeFree (s : State) : Nat := Config.strikeCapacity - s.strikes.items.length

/-- The settled condition (R73). -/
def isSettled (s : State) : Bool :=
  s.sustain.panelState == .live && s.strikes.items.isEmpty && s.tracker.stale.isEmpty && !s.tracker.scanner.active

/-- What the flags DRAINED, SPACE and SETTLED compare: read before and after each event (R60, R132, R74). -/
def observe (s : State) : Before :=
  { idle := chanIdle s.localChan
    roomy := Config.spaceThreshold ≤ fifoFree s .localCh
    settled := isSettled s
    opening := .shut }

/-- The event in progress, if there is one, has come to `o`. -/
def openEvent (o : Opening) (s : State) : State := s.withEvent (s.event.map fun b => { b with opening := o })

/-- A record queue that was full has free places now: a press may come together with that (R117). -/
def freePlaces (wasFull : Bool) (s : State) : State := if wasFull then openEvent .freed s else s

/-- The end of an event: DRAINED, SPACE and SETTLED are raised when their conditions have become true over it (R60, R132,
R74), and no event is in progress any more. -/
def endEvent (s : State) : State :=
  match s.event with
  | none => s
  | some b =>
    let now := observe s
    ((raiseWhen (!b.settled && now.settled) .settled
      (raiseWhen (!b.roomy && now.roomy) .space
        (raiseWhen (!b.idle && now.idle) .drained s)))).withEvent none

/-- The attention output: some flag is both set and enabled (R133). -/
def attention (s : State) : Bool := s.port.flags &&& s.port.enables != 0

/-- The STATUS word (R131, R142). -/
def statusWord (s : State) : Word :=
  BitVec.ofBool s.station.programming.isSome ++
  (BitVec.ofBool s.port.overflow ++
  (BitVec.ofNat 5 s.port.input.length ++
  (BitVec.ofBool (isSettled s) ++
  (BitVec.ofNat 2 (panelCode s.sustain.panelState) ++
  (BitVec.ofBool s.supervision.resumeAwaited ++
  (BitVec.ofBool s.supervision.takeover ++
  (BitVec.ofNat 2 (causeCode s.localChan.cause) ++
   BitVec.ofNat 2 (responseCode s.localChan.response))))))))

/-- The record that a read of INPUT returns, kind NONE when the queue is empty (R130, R142). -/
def inputWord (s : State) : Word :=
  match s.port.input with
  | [] => 0
  | r :: _ => recordWord r

/-- The RECORD word of the selected field (R136). -/
def recordFieldRead (s : State) : Word :=
  let f := s.port.select.toNat
  if f ≤ 8 then
    recordFieldWord (sparseGet 0 s.station.cells f) (sparseGet false s.station.committed f)
      (effectivePart s.station.effective f)
  else if f = 9 then
    recordFieldWord (if s.station.lockMark then 1 else 0) false (if s.station.lockInEffect then 1 else 0)
  else 0

/-- The word that a read of a location returns (R129); while the terminal reset input is asserted, 0 (R144). -/
def portRead (s : State) (location : BitVec 3) : Word :=
  if s.terminalReset then 0
  else
    match location.toNat with
    | 1 => inputWord s
    | 2 => statusWord s
    | 3 => BitVec.ofNat 16 (fifoFree s .localCh)
    | 4 => s.port.flags.setWidth 16
    | 5 => recordFieldRead s
    | _ => 0

/-- The line channel state and halt cause of reply word 1 are those of the line channel (R127). -/
def replyWord1 (s : State) : Word :=
  (0 : BitVec 7) ++
  (BitVec.ofBool (chanIdle s.lineChan) ++
  (BitVec.ofBool s.supervision.resumeAwaited ++
  (BitVec.ofBool s.supervision.takeover ++
  (BitVec.ofBool (isSettled s) ++
  (BitVec.ofNat 2 (panelCode s.sustain.panelState) ++
  (BitVec.ofNat 2 (causeCode s.lineChan.cause) ++
   BitVec.ofBool (s.lineChan.response == .halted)))))))

/-- Reply word 2: free line FIFO words (R127, R143). -/
def replyWord2 (s : State) : Word := BitVec.ofNat 16 (fifoFree s .lineCh)

/-- The record count of a reply composed now (R127). -/
def replyCount (s : State) : Nat := min Config.replyRecords s.lineIf.upstream.length

/-- Reply word 3: discard count, room flag, overflow flag, record count (R127, R143). -/
def replyWord3 (s : State) : Word :=
  (0 : BitVec 7) ++
  (BitVec.ofNat 3 (replyCount s) ++
  (BitVec.ofBool s.lineIf.overflow ++
  (BitVec.ofBool s.lineIf.roomFlag ++ BitVec.ofNat 4 s.lineIf.discards)))

/-- The data words of a reply composed now (R127). -/
def replyWords (s : State) : List Word :=
  replyWord1 s :: replyWord2 s :: replyWord3 s :: (s.lineIf.upstream.take (replyCount s)).map recordWord

/-- The effective station number as five bits; 31 for no station (R136). -/
def stationBits (s : State) : BitVec 5 := BitVec.ofNat 5 ((s.station.effective.station.map Fin.val).getD 31)

/-- The bytes of a reply composed now: address, length, data, check (R127, R143). -/
def replyBytes (s : State) : List Byte :=
  let body := replyAddress (stationBits s) :: BitVec.ofNat 8 (replyWords s).length :: (replyWords s).flatMap wordBytes
  body ++ [checkByte body]

end Sys2Proof.Machine
end

