-- ==== Sys2Proof/Machine/Decoder.lean ====
section
/-! DEFINITION. The decoder of a channel (chapter 4): when it reaches an order, the checks it makes, and the effect of each
order at the event at which it is reached. One definition per order over the channel alone. -/

namespace Sys2Proof.Machine

/-- What the decoder finds at the front of a FIFO. -/
inductive Reached where
  /-- No head word, or words missing: the decoder waits (R50). -/
  | waits
  /-- A check fails; the channel halts with the cause (R53). -/
  | malformed (cause : HaltCause)
  /-- The order's head word and fixed arguments are present and pass the checks. -/
  | order (kind : OrderKind) (head : Word) (args : List Word)
  deriving DecidableEq, Repr

/-- The decoder at the front of `fifo` on channel `ch`: the privilege and function checks on the head word alone, then the
wait for the arguments, then the argument check (R50, R53, R102, R103). -/
def reachedIn (ch : Channel) (fifo : List Word) : Reached :=
  match fifo with
  | [] => .waits
  | head :: rest =>
    if isSupervise head && ch == .localCh then .malformed .privilege
    else
      match headKind head with
      | none => .malformed .code
      | some kind =>
        let args := rest.take (argumentCount kind)
        if rest.length < argumentCount kind then .waits
        else if coordinateArguments kind && args.any badCoordinate then .malformed .argument
        else .order kind head args

/-- What the decoder of a channel reaches: nothing unless the channel is in ACCEPT with no order in progress (R50). -/
def reached (ch : Channel) (c : Chan) : Reached :=
  if c.response == .accept && c.order.isNone then reachedIn ch c.fifo else .waits

/-- The words of an order leave the FIFO: its head word and `n` fixed arguments (R48). -/
def popOrder (n : Nat) (c : Chan) : Chan := { c with fifo := c.fifo.drop (n + 1) }

/-- An order starts: its record is created (R51). -/
def startRecord (o : Order) (c : Chan) : Chan := { c with order := some o }

/-- NOP changes nothing else (R49). -/
def reachNop (c : Chan) : Chan := popOrder 0 c

/-- MOVE (R18). -/
def reachMove (args : List Word) (c : Chan) : Chan :=
  popOrder 2 { c with context := { c.context with position := pointOf args, penFresh := true } }

/-- DOT starts (R19, R20). -/
def reachDot (args : List Word) (c : Chan) : Chan := startRecord (.dot (pointOf args) false) (popOrder 2 c)

/-- LINE starts; with pen fresh clear step 0 is not drawn, and a LINE left without a step completes at its start (R23). -/
def reachLine (args : List Word) (c : Chan) : Chan :=
  let p := c.context.position
  let q := pointOf args
  let first := if c.context.penFresh then 0 else 1
  if first ≤ lineSteps p q then startRecord (.line p q first) (popOrder 2 c)
  else popOrder 2 { c with context := { c.context with position := q, penFresh := false } }

/-- BLOCK starts (R19, R25). -/
def reachBlock (args : List Word) (c : Chan) : Chan :=
  startRecord (.block c.context.position (pointOf args) 0) (popOrder 2 c)

/-- RASTER starts (R19, R26). -/
def reachRaster (args : List Word) (c : Chan) : Chan :=
  startRecord (.raster c.context.position (extentOf (args.getD 0 0)) (extentOf (args.getD 1 0)) 0 0 none) (popOrder 2 c)

/-- TEXT starts; with count 0 it completes at its start and sets pen fresh (R40). -/
def reachText (head : Word) (c : Chan) : Chan :=
  if countOf head = 0 then popOrder 0 { c with context := { c.context with penFresh := true } }
  else startRecord (.text (countOf head) c.context.position none none none) (popOrder 0 c)

/-- NEWLINE (R46). -/
def reachNewline (c : Chan) : Chan :=
  let next : Point := { x := c.context.margin, y := pitchDown c.context.size c.context.position.y }
  popOrder 0 { c with context := { c.context with position := next, penFresh := true } }

/-- MARGIN (R47). -/
def reachMargin (c : Chan) : Chan := popOrder 0 { c with context := { c.context with margin := c.context.position.x } }

/-- MODE (R52). -/
def reachMode (head : Word) (c : Chan) : Chan :=
  popOrder 0 { c with context := { c.context with mode := modeOf head, size := sizeFieldOf head } }

/-- CLIP (R52). -/
def reachClip (args : List Word) (c : Chan) : Chan :=
  let clip := rectOf (coordAt args 0) (coordAt args 1) (coordAt args 2) (coordAt args 3)
  popOrder 4 { c with context := { c.context with clip := clip } }

/-- GLYPH starts (R37). -/
def reachGlyph (head : Word) (c : Chan) : Chan := startRecord (.glyph (slotOf head)) (popOrder 0 c)

/-- The effective clip rectangle of a WIPE: the clip rectangle, cut to the local area for the local channel (R30). -/
def effectiveClip (ch : Channel) (area : Rect) (c : Chan) : Option Rect :=
  match ch with
  | .lineCh => some c.context.clip
  | .localCh => rectMeet c.context.clip area

/-- WIPE starts on the bulk path, on the degraded path, or completes at its start when the intersection is empty (R30). -/
def reachWipe (ch : Channel) (area : Rect) (c : Chan) : Chan :=
  match effectiveClip ch area c with
  | none => popOrder 0 c
  | some r => startRecord (if r = Rect.whole then .wipe else .wipeArea r 0) (popOrder 0 c)

/-- PASS starts (R59). -/
def reachPass (head : Word) (c : Chan) : Chan := startRecord (.pass (payloadOf head)) (popOrder 0 c)

/-- REPAINT starts (R96). -/
def reachRepaint (c : Chan) : Chan := startRecord .repaint (popOrder 0 c)

/-- A SUPERVISE order of the line channel starts, its function and arguments latched (R102). -/
def reachSupervise (kind : OrderKind) (args : List Word) (c : Chan) : Chan :=
  startRecord (.supervise (superviseOf kind args)) (popOrder (argumentCount kind) c)

/-- The channel after its decoder has acted on the order it reaches (R50). -/
def decoded (ch : Channel) (area : Rect) (kind : OrderKind) (head : Word) (args : List Word) (c : Chan) : Chan :=
  match kind with
  | .nop => reachNop c
  | .move => reachMove args c
  | .dot => reachDot args c
  | .line => reachLine args c
  | .block => reachBlock args c
  | .raster => reachRaster args c
  | .text => reachText head c
  | .newline => reachNewline c
  | .margin => reachMargin c
  | .mode => reachMode head c
  | .clip => reachClip args c
  | .glyph => reachGlyph head c
  | .wipe => reachWipe ch area c
  | .pass => reachPass head c
  | .repaint => reachRepaint c
  | .take => reachSupervise .take args c
  | .give => reachSupervise .give args c
  | .area => reachSupervise .area args c
  | .lock => reachSupervise .lock args c
  | .route => reachSupervise .route args c
  | .timing => reachSupervise .timing args c

/-- A channel's entry to HALTED (R54). -/
def haltedChan (cause : HaltCause) (c : Chan) : Chan :=
  { c with fifo := [], order := none, response := .halted, cause := cause }

/-- A channel enters HALTED; the local channel raises HALT (R54). -/
def haltChannel (ch : Channel) (cause : HaltCause) (s : State) : State :=
  raiseWhen (ch == .localCh) .halt (s.withChan ch (haltedChan cause (s.chan ch)))

/-- The decoder of `ch` acts on what it reaches (R50, R53). -/
def decodeStep (ch : Channel) (s : State) : State :=
  match reached ch (s.chan ch) with
  | .waits => s
  | .malformed cause => haltChannel ch cause s
  | .order kind head args => s.withChan ch (decoded ch s.supervision.area kind head args (s.chan ch))

/-- Whether the decoder of `ch` has something to act on. -/
def decodeDue (ch : Channel) (s : State) : Bool := reached ch (s.chan ch) != .waits

/-- The row of the table that the front of a FIFO belongs to; a SUPERVISE of an unassigned function counts as TAKE's. -/
def frontKind (c : Chan) : Option OrderKind :=
  c.fifo.head?.map fun head => (headKind head).getD .take

end Sys2Proof.Machine
end

