-- ==== Sys2Proof/Machine/Ops.lean ====
section
/-! DEFINITION. The operations the blocks share: reading and writing the shadow image, the stale-row table, the glyph memory
and the panel; the strike queue; clipping, combine and render; the restore scanner; sustain start and loss. -/

namespace Sys2Proof.Machine

/-! ### Addressed stores -/

/-- The key of row-group (y, g) (R1). -/
def rowKey (y : Coord) (g : Group) : Nat := 32 * y.val + g.val

/-- The shadow set of a row-group (R1). -/
def shadowAt (s : State) (y : Coord) (g : Group) : Cells := sparseGet 0 s.engine.shadow (rowKey y g)

/-- The panel cells of a row-group that show lit (section 0.1). -/
def panelAt (s : State) (y : Coord) (g : Group) : Cells := sparseGet 0 s.panel.lit (rowKey y g)

/-- The stale-row entry of a row (R88). -/
def staleAt (s : State) (y : Coord) : StaleKind := sparseGet .coherent s.tracker.stale y.val

/-- The row is in the stale set (R88). -/
def isStale (s : State) (y : Coord) : Bool := staleAt s y != .coherent

/-- The address of glyph row `r` of a slot (R34). -/
def glyphAddress (slot : Byte) (r : Nat) : Nat := 16 * slot.toNat + r

/-- The 16 glyph rows of a slot, from the top (R34). -/
def glyphRows (glyphs : List Host.Cell) (slot : Byte) : List Byte :=
  (List.range 16).map fun r => sparseGet 0 glyphs (glyphAddress slot r)

/-- The glyph rows that data words carry: row 2j in the high byte of word j, row 2j + 1 in its low byte (R36). -/
def rowsOfWords (words : List Word) : List Byte := words.flatMap fun w => [highByte w, lowByte w]

/-- A slot's rows replaced from row `r` on (R34). -/
def loadRows (glyphs : List Host.Cell) (slot : Byte) (r : Nat) : List Byte → List Host.Cell
  | [] => glyphs
  | row :: rest => loadRows (sparseSet 0 glyphs (glyphAddress slot r) row) slot (r + 1) rest

/-! ### The strike queue -/

/-- Hand the queue a WRITE or ERASE item: an empty set is left out (R62), the newest item of the same kind, row and group
is widened, and otherwise the item is appended (R14, R64). -/
def handOver (kind : StrikeKind) (y : Coord) (g : Group) (cells : Cells) (items : List StrikeItem) : List StrikeItem :=
  if cells = 0 then items
  else
    match items.getLast? with
    | some (.strike k r h held) =>
      if k = kind ∧ r = y ∧ h = g then items.dropLast ++ [.strike kind y g (held ||| cells)]
      else items ++ [.strike kind y g cells]
    | _ => items ++ [.strike kind y g cells]

/-- Hand the queue an ERASE item and then a WRITE item of one row-group (R12, R93). -/
def handPair (y : Coord) (g : Group) (erase write : Cells) (items : List StrikeItem) : List StrikeItem :=
  handOver .write y g write (handOver .erase y g erase items)

/-- The panel after a strike item is applied (R62). -/
def applyItem (item : StrikeItem) (lit : List (Nat × Cells)) : List (Nat × Cells) :=
  match item with
  | .strike .write y g cells => sparseSet 0 lit (rowKey y g) (sparseGet 0 lit (rowKey y g) ||| cells)
  | .strike .erase y g cells => sparseSet 0 lit (rowKey y g) (sparseGet 0 lit (rowKey y g) &&& ~~~cells)
  | .bulk => []

/-- The scanner claims room while it is ACTIVE with a current row (R65). -/
def scannerClaims (s : State) : Bool := s.tracker.scanner.active && s.tracker.scanner.current.isSome

/-! ### Clipping, combine and render -/

/-- The cells of a row-group inside a rectangle (R10). -/
def rectCells (r : Rect) (y : Coord) (g : Group) : Cells :=
  if r.yLo ≤ y ∧ y ≤ r.yHi then columnCells g r.xLo r.xHi else 0

/-- The clipped box B' of a span presented by `ch` (R10). -/
def clippedBox (s : State) (ch : Channel) (p : Span) : Cells :=
  let inClip := p.box &&& rectCells (s.chan ch).context.clip p.row p.group
  match ch with
  | .lineCh => inClip
  | .localCh => inClip &&& rectCells s.supervision.area p.row p.group

/-- The new set N from the old set O, the clipped box B' and the clipped on-set F' (R11). -/
def combine (mode : Mode) (old box on : Cells) : Cells :=
  match mode with
  | .write => old ||| on
  | .erase => old &&& ~~~on
  | .inverse => old ^^^ on
  | .rewrite => (old &&& ~~~box) ||| on

/-- The mode a span is combined in: ERASE for a degraded WIPE, else the channel's (R11). -/
def spanMode (s : State) (ch : Channel) (p : Span) : Mode := if p.wipe then .erase else (s.chan ch).context.mode

/-- The new shadow set of a span's row-group (R11). -/
def newCells (s : State) (ch : Channel) (p : Span) : Cells :=
  combine (spanMode s ch p) (shadowAt s p.row p.group) (clippedBox s ch p) (p.on &&& clippedBox s ch p)

/-- A span needs room when its row is not stale and its clipped box is not empty (R8). -/
def needsRoom (s : State) (h : Held) : Bool := !isStale s h.span.row && clippedBox s h.channel h.span != 0

/-- The engine's claim would be served now: 2 free items, and the scanner does not claim or was served last (R66). -/
def engineServed (s : State) : Bool := 2 ≤ strikeFree s && (!scannerClaims s || s.strikes.turn == .scanner)

/-- The render condition (R7). -/
def renderCondition (s : State) (h : Held) : Bool := !needsRoom s h || engineServed s

/-- The shadow image and the strike queue after a span's cells are combined: N replaces O (R11), and for a row that is not
stale ERASE O - N and WRITE N - O are handed over, which serves the engine (R12, R13, R65). A clipped box that is empty
changes nothing (R10). -/
def drawSpan (h : Held) (s : State) : State :=
  if clippedBox s h.channel h.span = 0 then s
  else
    let y := h.span.row
    let g := h.span.group
    let old := shadowAt s y g
    let new := newCells s h.channel h.span
    let drawn := s.withEngine { s.engine with shadow := sparseSet 0 s.engine.shadow (rowKey y g) new }
    if isStale s y then drawn
    else
      drawn.withStrikes
        { items := handPair y g (old &&& ~~~new) (new &&& ~~~old) s.strikes.items, turn := .engine }

/-- The render of a span: its cells are drawn, its order progresses, and the engine is FREE (R7, R11, R12, R15). -/
def renderSpan (h : Held) (s : State) : State :=
  let t := drawSpan h s
  let u := t.withChan h.channel (spanRendered (t.chan h.channel))
  u.withEngine { u.engine with held := none }

/-- The span the engine holds WAITING renders, if there is one. -/
def renderHeld (s : State) : State :=
  match s.engine.held with
  | none => s
  | some h => renderSpan h s

/-- A span held for `ch` is abandoned unrendered; another channel's stays held (R5). -/
def abandonHeld (ch : Channel) (s : State) : State :=
  match s.engine.held with
  | none => s
  | some h => if h.channel = ch then s.withEngine { s.engine with held := none } else s

/-! ### The restore scanner -/

/-- The row a take chooses: the lowest stale row at or above the sweep row, else the lowest stale row (R92). -/
def rowToTake (stale : List (Nat × StaleKind)) (sweep : Nat) : Option (Nat × StaleKind) :=
  match stale.find? fun p => sweep ≤ p.1 with
  | some p => some p
  | none => stale.head?

/-- An ACTIVE scanner with no current row on a LIVE panel takes a row, or becomes IDLE when no row is stale (R92). -/
def takeRow (s : State) : State :=
  let c := s.tracker.scanner
  if s.sustain.panelState = .live ∧ c.active = true ∧ c.current = none then
    match rowToTake s.tracker.stale c.sweep with
    | none => s.withTracker { s.tracker with scanner := { c with active := false } }
    | some (y, kind) =>
      s.withTracker
        { stale := sparseSet .coherent s.tracker.stale y .coherent
          scanner := { c with current := some { row := coord y, kind := kind, next := 0 } } }
  else s

/-- The scanner becomes ACTIVE when the stale set is non-empty, and takes a row if it has none (R91). -/
def activateScanner (s : State) : State :=
  if s.tracker.stale = [] then s
  else takeRow (s.withTracker { s.tracker with scanner := { s.tracker.scanner with active := true } })

/-- The items one restore step hands over (R93): for an UNKNOWN row the dark cells are erased, and for both kinds the lit
cells are written. -/
def restoreItems (cur : Current) (lit : Cells) (items : List StrikeItem) : List StrikeItem :=
  handPair cur.row cur.next (if cur.kind = .blank then 0 else ~~~lit) lit items

/-- The scanner record after a step: the next group, or the row's end with the sweep row moved on (R93, R94). -/
def afterStep (c : Scanner) (cur : Current) : Scanner :=
  if cur.next.val = 31 then { c with sweep := coord (cur.row.val + 1), current := none }
  else { c with current := some { cur with next := group (cur.next.val + 1) } }

/-- One restore step, and after group 31 the take of the next row (R93, R94). The service sets the room turn (R65). -/
def restoreStep (s : State) : State :=
  match s.tracker.scanner.current with
  | none => s
  | some cur =>
    let t := s.withStrikes
      { items := restoreItems cur (shadowAt s cur.row cur.next) s.strikes.items, turn := .scanner }
    takeRow (t.withTracker { t.tracker with scanner := afterStep t.tracker.scanner cur })

/-! ### Sustain start and loss -/

/-- Every row BLANK and the scanner IDLE at sweep row 0 with no current row (R95). -/
def lostTracker : Tracker := { stale := allBlank, scanner := { active := false, sweep := 0, current := none } }

/-- The panel as the sustain starts: its cells may have been left in any state (R71), so they are the free value of log
entry 9. -/
def panelStarted (p : Panel) : Panel :=
  { lit := sparseTable 0 16384 (Config.panelAtStart p.starts), starts := p.starts + 1 }

/-- The sustain starts (R78): pending timing effective, divider count 0, first cycle, PRIMING, PANEL raised (R87). -/
def startSustain (s : State) : State :=
  raiseFlag .panel
    ((s.withSustain
      { s.sustain with
        panelState := .priming, effectiveTiming := s.sustain.pendingTiming, divider := 0
        cycle := some { place := 0, drive := none } }).withPanel (panelStarted s.panel))

/-- The sustain starts when the supply is GOOD, the enable on and the panel DARK (R78). -/
def startWhenReady (s : State) : State :=
  if s.sustain.supplyState = .good ∧ s.sustain.enable = true ∧ s.sustain.panelState = .dark then startSustain s else s

/-- What a loss does to the panel, the queue and the tracker (R68, R83, R95): DARK with the outputs deasserted, the queue
purged with its room turn kept, every row BLANK, the scanner IDLE. -/
def enterDark (s : State) : State :=
  (((s.withSustain { s.sustain with panelState := .dark, cycle := none }).withStrikes
    { s.strikes with items := [] }).withTracker lostTracker).withPanel { s.panel with lit := [] }

/-- A loss by droop or panel-off: besides, PANEL is raised and a held span renders as a span of a stale row (R9, R83). On a
DARK panel it is no loss. -/
def lose (s : State) : State :=
  if s.sustain.panelState = .dark then s else renderHeld (raiseFlag .panel (enterDark s))

end Sys2Proof.Machine
end

