-- ==== Sys2Proof/Machine/Engine.lean ====
section
/-! DEFINITION. The units and the arbiter: what each unit does at its grant (R3), which piece a channel presents (R4), which
channel is granted (R6), and the grant itself (R7). -/

namespace Sys2Proof.Machine

/-- An order completes: its record is dropped (R51). -/
def completeOrder (ch : Channel) (s : State) : State := s.withChan ch { s.chan ch with order := none }

/-- A record joins the local input queue, raising INPUT when the queue was empty (R132). -/
def joinInput (r : InputRecord) (s : State) : State :=
  raiseWhen s.port.input.isEmpty .input (s.withPort { s.port with input := s.port.input ++ [r] })

/-- A record joins the upstream queue (R128). -/
def joinUpstream (r : InputRecord) (s : State) : State :=
  s.withLineIf { s.lineIf with upstream := s.lineIf.upstream ++ [r] }

/-- The target queue of a PASS has a free place: the local input queue for the line channel's, the upstream queue for the
local channel's (R59). -/
def passRoom (s : State) : Channel → Bool
  | .lineCh => s.port.input.length < Config.recordCapacity
  | .localCh => s.lineIf.upstream.length < Config.recordCapacity

/-- The glyph set of a slot (R34). -/
def slotSet (slot : Byte) : Nat := slot.toNat / 64

/-- A GLYPH unit: the eight data words leave the FIFO and replace the slot's rows, or the load is refused (R37, R38). -/
def glyphUnit (ch : Channel) (slot : Byte) (s : State) : State :=
  if ch = .localCh ∧ s.engine.lockSet.getLsbD (slotSet slot) = true then haltChannel ch .locked s
  else
    let c := s.chan ch
    (s.withEngine
      { s.engine with glyphs := loadRows s.engine.glyphs slot 0 (rowsOfWords (c.fifo.take 8)) }).withChan ch
        { c with fifo := c.fifo.drop 8, order := none }

/-- A full-panel wipe: the shadow image is emptied; on a LIVE panel the queue is purged and holds one BULK item, every row
is COHERENT, and the scanner is IDLE with its sweep row kept (R31, R67, R98). -/
def fullWipe (s : State) : State :=
  let t := s.withEngine { s.engine with shadow := [] }
  if s.sustain.panelState = .live then
    (t.withStrikes { s.strikes with items := [.bulk] }).withTracker
      { stale := [], scanner := { s.tracker.scanner with active := false, current := none } }
  else t

/-- A WIPE unit: a local one whose local area has narrowed goes on by the degraded path over its clip cut to that area
(R31, R33). -/
def wipeUnit (ch : Channel) (s : State) : State :=
  if ch = .localCh ∧ s.supervision.area ≠ Rect.whole then
    s.withChan ch
      { s.chan ch with
        order := (rectMeet (s.chan ch).context.clip s.supervision.area).map fun r => .wipeArea r 0 }
  else completeOrder ch (fullWipe s)

/-- A PASS unit (R59). -/
def passUnit (ch : Channel) (payload : BitVec 12) (s : State) : State :=
  completeOrder ch
    (match ch with
     | .lineCh => joinInput (.pass payload) s
     | .localCh => joinUpstream (.pass payload) s)

/-- The stale-row table after a REPAINT of a LIVE panel: every COHERENT entry but the current row's becomes UNKNOWN; BLANK
entries stay (R96). -/
def repaintedTable (t : Tracker) : List (Nat × StaleKind) :=
  sparseTable .coherent 512 fun y =>
    if sparseGet .coherent t.stale y = .coherent then
      if (t.scanner.current.map fun c => c.row.val) = some y then .coherent else .unknown
    else sparseGet .coherent t.stale y

/-- A REPAINT unit (R96, R97): the current row's kind becomes UNKNOWN, and the scanner becomes or stays ACTIVE. -/
def repaintUnit (ch : Channel) (s : State) : State :=
  let t := s.withTracker
    { stale := repaintedTable s.tracker
      scanner :=
        { s.tracker.scanner with
          current := s.tracker.scanner.current.map fun c => { c with kind := .unknown } } }
  completeOrder ch (if s.sustain.panelState = .live then activateScanner t else s)

/-- The grant of a TAKE (R105): nothing when takeover is in force; else takeover is set, an ACCEPT channel enters HOLD, and
resume-awaited is cleared. -/
def takeEffect (s : State) : State :=
  if s.supervision.takeover then s
  else
    let c := s.localChan
    raiseFlag .takeover
      ((s.withSupervision { s.supervision with takeover := true, resumeAwaited := false }).withLocalChan
        { c with response := if c.response = .accept then .hold else c.response })

/-- The grant of a GIVE, and what a CLEAR frame does as a GIVE would (R106): when takeover is in force it ends, and a channel
in HOLD awaits RESUME. -/
def giveEffect (s : State) : State :=
  if s.supervision.takeover then
    raiseFlag .takeover
      (s.withSupervision
        { s.supervision with takeover := false, resumeAwaited := s.localChan.response == .hold })
  else s

/-- The grant of an AREA (R109). -/
def areaEffect (x1 y1 x2 y2 : Coord) (s : State) : State :=
  s.withSupervision { s.supervision with area := rectOf x1 y1 x2 y2 }

/-- The grant of a LOCK (R110). -/
def lockEffect (sets : BitVec 4) (s : State) : State := s.withEngine { s.engine with lockSet := sets }

/-- The grant of a ROUTE (R110). -/
def routeEffect (r : Route) (s : State) : State := s.withSupervision { s.supervision with route := r }

/-- The grant of a TIMING: both words clamped (R85, R110). -/
def timingEffect (period dead : Word) (s : State) : State :=
  s.withSustain
    { s.sustain with
      pendingTiming := { period := clampPeriod period.toNat, dead := clampDead dead.toNat } }

/-- A SUPERVISE unit (R102). -/
def superviseEffect (f : Supervise) (s : State) : State :=
  match f with
  | .take => takeEffect s
  | .give => giveEffect s
  | .area x1 y1 x2 y2 => areaEffect x1 y1 x2 y2 s
  | .lock sets => lockEffect sets s
  | .route r => routeEffect r s
  | .timing period dead => timingEffect period dead s

/-- A SUPERVISE unit is carried out and its order completes (R102). -/
def superviseUnit (ch : Channel) (f : Supervise) (s : State) : State := completeOrder ch (superviseEffect f s)

/-- The unit of an order is complete in the FIFO and has room (R4, R37, R59). A span-giving order has no unit. -/
def unitReady (s : State) (ch : Channel) : Bool :=
  match (s.chan ch).order with
  | some (.glyph _) => 8 ≤ (s.chan ch).fifo.length
  | some .wipe => true
  | some (.pass _) => passRoom s ch
  | some (.supervise _) => true
  | some .repaint => true
  | _ => false

/-- A unit is carried out whole (R3). -/
def carryUnit (ch : Channel) (s : State) : State :=
  match (s.chan ch).order with
  | some (.glyph slot) => glyphUnit ch slot s
  | some .wipe => wipeUnit ch s
  | some (.pass payload) => passUnit ch payload s
  | some (.supervise f) => superviseUnit ch f s
  | some .repaint => repaintUnit ch s
  | _ => s

/-- The span the channel presents, with the channel after its grant (R4). -/
def spanReady (s : State) (ch : Channel) : Option (Span × Chan) := formSpan (glyphRows s.engine.glyphs) (s.chan ch)

/-- The channel presents a piece: only in ACCEPT (R4). -/
def presents (s : State) (ch : Channel) : Bool :=
  (s.chan ch).response == .accept && (unitReady s ch || (spanReady s ch).isSome)

/-- The other channel. -/
def otherChannel : Channel → Channel
  | .lineCh => .localCh
  | .localCh => .lineCh

/-- The channel the arbiter grants now: none while the engine is WAITING; when both present, the one not in the arbiter
memory (R6). -/
def grantee (s : State) : Option Channel :=
  if s.engine.held.isSome then none
  else
    match presents s .lineCh, presents s .localCh with
    | true, false => some .lineCh
    | false, true => some .localCh
    | true, true => some (otherChannel s.engine.arbiter)
    | false, false => none

/-- A granted span renders at once when the render condition holds; otherwise the engine is WAITING and holds it (R7). -/
def placeSpan (h : Held) (s : State) : State :=
  if renderCondition s h then renderSpan h s else s.withEngine { s.engine with held := some h }

/-- The grant of a channel's piece: the arbiter memory names the channel, a unit is carried out, a span is placed (R6, R7). -/
def grantTo (ch : Channel) (s : State) : State :=
  let t := s.withEngine { s.engine with arbiter := ch }
  if unitReady t ch then carryUnit ch t
  else
    match spanReady t ch with
    | none => t
    | some (p, c) => placeSpan { channel := ch, span := p } (t.withChan ch c)

/-- The arbiter's grant (R6). -/
def grantStep (s : State) : State :=
  match grantee s with
  | none => s
  | some ch => grantTo ch s

/-- A held span renders when the render condition holds (R7, R9). -/
def renderDue (s : State) : Bool :=
  match s.engine.held with
  | none => false
  | some h => renderCondition s h

/-- The engine claims room while it holds a span that needs it (R65). -/
def engineClaims (s : State) : Bool :=
  match s.engine.held with
  | none => false
  | some h => needsRoom s h

/-- The scanner's claim is served: 2 free items, and the engine does not claim or was served last (R66). -/
def restoreDue (s : State) : Bool :=
  scannerClaims s && decide (2 ≤ strikeFree s) && (!engineClaims s || s.strikes.turn == .engine)

/-- Channel `ch` may handle a dropped RASTER row (R29). A frozen channel handles none (R45, R105). -/
def droppedRowDue (ch : Channel) (s : State) : Bool :=
  (s.chan ch).response == .accept && droppedRowReady (s.chan ch)

/-- Channel `ch` handles a dropped RASTER row (R29). -/
def droppedRowStep (ch : Channel) (s : State) : State := s.withChan ch (droppedRowHandled (s.chan ch))

end Sys2Proof.Machine
end

