-- ==== Sys2Proof/Machine/Event.lean ====
section
/-! DEFINITION. Events. The manual lets one event run on through the part's own steps: an order word may complete an order,
whose span is granted and rendered "at the same event". The model takes those steps one by one (log entry 3): an event stays
in progress while a step of it is due, and the next event from outside first carries out the steps still due. -/

namespace Sys2Proof.Machine

/-- The part's own steps. -/
inductive Internal where
  /-- A decoder acts (R50). -/
  | decode (ch : Channel)
  /-- A dropped RASTER row is handled (R29). -/
  | droppedRow (ch : Channel)
  /-- The held span renders (R7). -/
  | render
  /-- The arbiter grants (R6). -/
  | grant
  /-- A FREE engine grants the line channel's piece at an event that comes together with a RESUME (R108). -/
  | grantLine
  /-- The scanner makes a restore step (R93). -/
  | restore
  deriving DecidableEq, Repr

/-- Whether a step is due: it can be made now, and so it belongs to the event in progress. -/
def isDue (i : Internal) (s : State) : Bool :=
  match i with
  | .decode ch => decodeDue ch s
  | .droppedRow ch => droppedRowDue ch s
  | .render => renderDue s
  | .grant => (grantee s).isSome
  | .grantLine => s.engine.held.isNone && presents s .lineCh
  | .restore => restoreDue s

/-- The state after one of the part's own steps. -/
def runInternal (i : Internal) (s : State) : State :=
  match i with
  | .decode ch => decodeStep ch s
  | .droppedRow ch => droppedRowStep ch s
  | .render => renderHeld s
  | .grant => grantStep s
  | .grantLine => grantTo .lineCh s
  | .restore => restoreStep s

/-- The steps in the order in which the part takes those that are due together (log entry 3). -/
def internalOrder : List Internal :=
  [.decode .lineCh, .decode .localCh, .droppedRow .lineCh, .droppedRow .localCh, .render, .grant, .restore]

/-- The first due step of a list of steps. -/
def dueAmong (steps : List Internal) (s : State) : Option Internal := steps.find? fun i => isDue i s

/-- The step the part takes next, none when the event is over. -/
def dueStep (s : State) : Option Internal := dueAmong internalOrder s

/-- At most `fuel` of the steps due among a list of steps, one after another. -/
def settleAmong (steps : List Internal) : (fuel : Nat) → State → State
  | 0, s => s
  | fuel + 1, s =>
    match dueAmong steps s with
    | none => s
    | some i => settleAmong steps fuel (runInternal i s)

/-- At most `fuel` of the steps due, one after another. -/
def settle (fuel : Nat) (s : State) : State := settleAmong internalOrder fuel s

/-- What the event in progress has only come to. -/
def opening (s : State) : Opening :=
  match s.event with
  | none => .shut
  | some b => b.opening

/-- The last step was a RESUME that returned the local channel to ACCEPT. The event stays in progress behind it, whether or
not a step is due, because a TAKE may fall together with it (R108, log entry 22). -/
def resumeOpen (s : State) : Bool := opening s == .resumed

/-- The last step freed places in a full record queue, and steps of its event are still to come (R117, log entry 10). -/
def placesOpen (s : State) : Bool := opening s == .freed

/-- The event in progress, if there is one, goes on past what it has come to. -/
def goOn (s : State) : State := openEvent .shut s

/-- An event begins: what held before it is noted. An event in progress goes on. -/
def beginEvent (s : State) : State :=
  match s.event with
  | none => s.withEvent (some (observe s))
  | some _ => goOn s

/-- The event ends when no step of it is due and it has not just come to a RESUME. -/
def closeEvent (s : State) : State := if (dueStep s).isSome || resumeOpen s then s else endEvent s

/-- The event in progress is carried to its end. -/
def finish (s : State) : State := closeEvent (settle Config.eventFuel (goOn s))

/-- What a channel that returns to ACCEPT does at once without a grant: its decoder acts, and its dropped rows are handled
(R50, R107). -/
def localAtOnce : List Internal := [.decode .localCh, .droppedRow .localCh]

/-- The part's own steps, in their order, with no grant to the local channel. -/
def noLocalGrant : List Internal :=
  [.decode .lineCh, .decode .localCh, .droppedRow .lineCh, .droppedRow .localCh, .render, .grantLine, .restore]

/-- The state at the first TAKE granted among at most `fuel` steps with no grant to the local channel, if one is. -/
def untilTake : (fuel : Nat) → State → Option State
  | 0, _ => none
  | fuel + 1, s =>
    match dueAmong noLocalGrant s with
    | none => none
    | some i =>
      let t := runInternal i s
      if t.supervision.takeover then some t else untilTake fuel t

/-- Where an event with direct effect `f` falls together with the RESUME just taken, and a TAKE is granted at it, the state at
that grant: the local channel acts at once on what it kept (R107), and is granted nothing between the two (R108, log entry 22). -/
def takeAtResume (f : State → State) (s : State) : Option State :=
  if resumeOpen s then
    untilTake Config.eventFuel (f (beginEvent (settleAmong localAtOnce Config.eventFuel (goOn s))))
  else none

/-- An event from outside, with direct effect `f`: the event before it is finished first, unless the two are a RESUME and a TAKE
that come together (R108). DESIGN CHOICE: so the grants of the event before come first; the two pairs of events for which the
manual says otherwise are this one and the press of `atPress` (log entry 10). -/
def atEvent (f : State → State) (s : State) : State :=
  match takeAtResume f s with
  | some t => closeEvent t
  | none => closeEvent (f (beginEvent (finish s)))

/-- The event of a press, with direct effect `f`: directly behind an event that has freed places in a full record queue it falls
together with that event, and the press meets the queue before the grant of a PASS that waits for a place (R59, R117). -/
def atPress (f : State → State) (s : State) : State :=
  if placesOpen s then closeEvent (f (beginEvent s)) else atEvent f s

/-- One of the part's own steps, `f`, within the event in progress. -/
def withinEvent (f : State → State) (s : State) : State := closeEvent (f (beginEvent s))

/-- One of the part's own steps, made when `due` and otherwise not. -/
def stepWhen (due : Bool) (f : State → State) (s : State) : State := if due then withinEvent f s else s

end Sys2Proof.Machine
end

