-- ==== Sys2Proof/Machine/EngineSteps.lean ====
section
/-! DEFINITION. The part's own steps as commands: RESTORE_STEP, ARBITER_GRANT, SPAN_RENDER, DROPPED_ROW_HANDLING. Each is one
step of the event in progress, made when it is due; a step that is not due does not come about, and the state is unchanged
(log entry 3). -/

namespace Sys2Proof.Machine

/-- RESTORE_STEP (R93). -/
def execRestoreStep (s : State) : Host.Outcome State Fault Refusal := .next (stepWhen (restoreDue s) restoreStep s)

/-- ARBITER_GRANT (R6). -/
def execArbiterGrant (s : State) : Host.Outcome State Fault Refusal := .next (stepWhen (grantee s).isSome grantStep s)

/-- SPAN_RENDER (R7). -/
def execSpanRender (s : State) : Host.Outcome State Fault Refusal := .next (stepWhen (renderDue s) renderHeld s)

/-- DROPPED_ROW_HANDLING (R29). -/
def execDroppedRowHandling (ch : Channel) (s : State) : Host.Outcome State Fault Refusal :=
  .next (stepWhen (droppedRowDue ch s) (droppedRowStep ch) s)

end Sys2Proof.Machine
end

