-- ==== Sys2Proof/Machine/PortCommands.lean ====
section
/-! DEFINITION. The local word port (chapter 11): ORDER, INPUT, STATUS, IGNORED_WRITE and the control words CLEAR-LOCAL,
RESUME, EVENT-ACK, EVENT-ENABLE, PANEL-ON, PANEL-OFF. While the terminal reset input is asserted writes are lost and reads
return 0 (R129). -/

namespace Sys2Proof.Machine

/-- An access that is not taken while the terminal reset input is asserted (R129). -/
def whenTaken (f : State → State) (s : State) : State := if s.terminalReset then s else f s

/-- The data lines carry the word a read returns. -/
def returnWord (w : Word) (s : State) : State := s.withPort { s.port with data := w }

/-- A word written to ORDER joins the local FIFO in ACCEPT with room, and is refused otherwise (R55). -/
def takeWord (w : Word) (s : State) : State :=
  if s.localChan.response = .accept ∧ 1 ≤ fifoFree s .localCh then
    s.withLocalChan { s.localChan with fifo := s.localChan.fifo ++ [w] }
  else raiseFlag .refused s

/-- ORDER (R55). -/
def execOrder (w : Word) (s : State) : Host.Outcome State Fault Refusal := .next (atEvent (whenTaken (takeWord w)) s)

/-- A read of INPUT: the oldest record leaves its queue and is returned, or NONE is (R130); a full queue has then a free place
(R117). -/
def readInput (s : State) : State :=
  let t := returnWord (portRead s 1) s
  if s.terminalReset then t
  else
    freePlaces (decide (Config.recordCapacity ≤ s.port.input.length))
      (t.withPort { t.port with input := t.port.input.tail })

/-- INPUT (R130). -/
def execInput (s : State) : Host.Outcome State Fault Refusal := .next (atEvent readInput s)

/-- A read of STATUS: the status word is returned, and the overflow flag is then cleared (R131). -/
def readStatus (s : State) : State :=
  let t := returnWord (portRead s 2) s
  if s.terminalReset then t else t.withPort { t.port with overflow := false }

/-- STATUS (R131). -/
def execStatus (s : State) : Host.Outcome State Fault Refusal := .next (atEvent readStatus s)

/-- IGNORED_WRITE changes nothing (R129, R134). -/
def execIgnoredWrite (_location : BitVec 3) (_word : Word) (s : State) : Host.Outcome State Fault Refusal :=
  .next (atEvent id s)

/-- A channel is emptied and its context and halt cause return to their defaults (R56, R57). -/
def clearedChan (response : Response) : Chan := { Chan.initial with response := response }

/-- CLEAR-LOCAL: ACCEPT, or HOLD under takeover, with resume-awaited clear (R56). -/
def clearLocal (s : State) : State :=
  let t := abandonHeld .localCh s
  (t.withLocalChan (clearedChan (if t.supervision.takeover then .hold else .accept))).withSupervision
    { t.supervision with resumeAwaited := false }

/-- CLEAR-LOCAL (R56). -/
def execClearLocal (_argument : BitVec 12) (s : State) : Host.Outcome State Fault Refusal :=
  .next (atEvent (whenTaken clearLocal) s)

/-- RESUME returns a channel awaiting it to ACCEPT, and is ignored otherwise (R107). The event notes the return, for a TAKE
that may fall together with it (R108, log entry 22). -/
def resumeLocal (s : State) : State :=
  if s.localChan.response = .hold ∧ s.supervision.takeover = false ∧ s.supervision.resumeAwaited = true then
    openEvent .resumed
      ((s.withLocalChan { s.localChan with response := .accept }).withSupervision
        { s.supervision with resumeAwaited := false })
  else s

/-- RESUME (R107). -/
def execResume (_argument : BitVec 12) (s : State) : Host.Outcome State Fault Refusal :=
  .next (atEvent (whenTaken resumeLocal) s)

/-- EVENT-ACK clears the named flags (R132). -/
def ackFlags (set : BitVec 8) (s : State) : State := s.withPort { s.port with flags := s.port.flags &&& ~~~set }

/-- EVENT-ACK (R132). -/
def execEventAck (argument : BitVec 12) (s : State) : Host.Outcome State Fault Refusal :=
  .next (atEvent (whenTaken (ackFlags (flagSetOf argument))) s)

/-- EVENT-ENABLE replaces the enables (R133). -/
def setEnables (set : BitVec 8) (s : State) : State := s.withPort { s.port with enables := set }

/-- EVENT-ENABLE (R133). -/
def execEventEnable (argument : BitVec 12) (s : State) : Host.Outcome State Fault Refusal :=
  .next (atEvent (whenTaken (setEnables (flagSetOf argument))) s)

/-- PANEL-ON: the enable is on, and the sustain starts if it can (R77). -/
def panelOn (s : State) : State := startWhenReady (s.withSustain { s.sustain with enable := true })

/-- PANEL-ON (R77). -/
def execPanelOn (_argument : BitVec 12) (s : State) : Host.Outcome State Fault Refusal :=
  .next (atEvent (whenTaken panelOn) s)

/-- PANEL-OFF: the enable is off; a running sustain stops at the next cycle start (R77, R80). -/
def panelOff (s : State) : State := s.withSustain { s.sustain with enable := false }

/-- PANEL-OFF (R77). -/
def execPanelOff (_argument : BitVec 12) (s : State) : Host.Outcome State Fault Refusal :=
  .next (atEvent (whenTaken panelOff) s)

end Sys2Proof.Machine
end

