-- ==== Sys2Proof/Machine/ClusterLine.lean ====
section
/-! DEFINITION. The cluster line (chapter 10): the receiver, the frame assembler, what a good frame does, and the reply:
CHARACTER_START, CHARACTER_ARRIVAL, ORDERS, CLEAR, POLL, TURNAROUND_GAP_EXPIRY, REPLY_SENT, LINE_GOES_HIGH. -/

namespace Sys2Proof.Machine

/-- The reply is being sent, and the receiver ignores the line (R119, R126). -/
def sendingReply (l : LineInterface) : Bool :=
  match l.reply with
  | .sending _ _ => true
  | .idle => false
  | .turnaround _ => false

/-- The frame assembler back in HUNT, with no record and an empty staging buffer (R120). -/
def hunting (l : LineInterface) : LineInterface := { l with assembler := .hunt, staging := [] }

/-- A taken frame is discarded and counted; `room` when it is for lack of room (R120, R124). -/
def discardFrame (room : Bool) (l : LineInterface) : LineInterface :=
  { hunting l with discards := min 15 (l.discards + 1), roomFlag := l.roomFlag || room }

/-- The rejection width in force, in sixteenths of a bit time (R119). -/
def rejection (s : State) : Nat := rejectionWidth s.station.effective.noise

/-- A character begins: a turnaround it begins in is cancelled (R119, R126). -/
def beginCharacter (l : LineInterface) : LineInterface :=
  { l with
    receiver := .receiving
    reply := match l.reply with
      | .turnaround _ => .idle
      | .idle => .idle
      | .sending b n => .sending b n }

/-- A falling edge with the receiver idle; the pulse is rejected when the line returns high before the rejection width has
passed (R119). -/
def startCharacter (low : Nat) (s : State) : State :=
  if s.terminalReset || sendingReply s.lineIf || s.lineIf.receiver != .idle || low < rejection s then s
  else s.withLineIf (beginCharacter s.lineIf)

/-- CHARACTER_START (R119). -/
def execCharacterStart (lowSixteenths : Nat) (s : State) : Host.Outcome State Fault Refusal :=
  .next (atEvent (startCharacter lowSixteenths) s)

/-! ### Address, length and data characters -/

/-- Whether a frame of this station and kind is taken (R121); `own` is the effective station number. -/
def frameTaken (own : Option (Fin 31)) (station : BitVec 5) (kind : FrameKind) : Bool :=
  if station.toNat = 31 then kind != .poll else own.map Fin.val == some station.toNat

/-- An address character is matched against the station: taken into LENGTH, or passed over into HUNT (R121). A frame in
progress is abandoned, not counted (R120). -/
def addressCharacter (own : Option (Fin 31)) (b : Byte) (l : LineInterface) : LineInterface :=
  match frameKindOf b with
  | none => hunting l
  | some kind =>
    if frameTaken own (stationOf b) kind then
      { hunting l with
        assembler := .length
          { station := stationOf b, kind := kind, length := none, bytesLeft := 0, sum := b, high := none } }
    else hunting l

/-- The length character (R122). -/
def lengthCharacter (r : Reception) (b : Byte) (l : LineInterface) : LineInterface :=
  let n := b.toNat
  if Config.frameCapacity < n || (r.kind != .orders && n != 0) then discardFrame false l
  else
    let next : Reception := { r with length := some n, bytesLeft := 2 * n, sum := r.sum + b }
    { l with assembler := if n = 0 then .check next else .data next }

/-- A data byte: the first of a pair is kept, the second completes a word of the staging buffer (R122). -/
def dataCharacter (r : Reception) (b : Byte) (l : LineInterface) : LineInterface :=
  let next : Reception := { r with bytesLeft := r.bytesLeft - 1, sum := r.sum + b }
  let place (q : Reception) : Assembler := if r.bytesLeft ≤ 1 then .check q else .data q
  match r.high with
  | none => { l with assembler := place { next with high := some b } }
  | some hi => { l with assembler := place { next with high := none }, staging := l.staging ++ [wordOf hi b] }

/-! ### Good frames -/

/-- A good ORDERS frame, by tests 2 to 4 of R123. -/
def acceptOrders (s : State) : State :=
  let words := s.lineIf.staging
  if s.lineChan.response = .halted then s.withLineIf (discardFrame false s.lineIf)
  else if fifoFree s .lineCh < words.length then s.withLineIf (discardFrame true s.lineIf)
  else (s.withLineIf (hunting s.lineIf)).withLineChan { s.lineChan with fifo := s.lineChan.fifo ++ words }

/-- The upstream queue is full (R128). -/
def upstreamFull (s : State) : Bool := Config.recordCapacity ≤ s.lineIf.upstream.length

/-- A good CLEAR frame (R57, R125): the line channel is emptied, a held line span abandoned, the local area and the touch
route return to their defaults, takeover ends as a GIVE ends it, and the upstream queue is emptied. -/
def acceptClear (s : State) : State :=
  let t := giveEffect ((abandonHeld .lineCh s).withLineChan (clearedChan .accept))
  freePlaces (upstreamFull s)
    ((t.withSupervision
      { t.supervision with area := Rect.whole, route := t.station.effective.route }).withLineIf
        { hunting t.lineIf with upstream := [] })

/-- A good POLL frame: the turnaround begins, two character times at the line rate (R126). -/
def acceptPoll (s : State) : State :=
  s.withLineIf
    { hunting s.lineIf with reply := .turnaround (2 * characterQuarters s.station.effective.rate) }

/-- The check character (R123): the frame is discarded when its sum is not 0, and otherwise acts by its kind. -/
def checkCharacter (r : Reception) (b : Byte) (s : State) : State :=
  if r.sum + b ≠ 0 then s.withLineIf (discardFrame false s.lineIf)
  else
    match r.kind with
    | .orders => acceptOrders s
    | .clear => acceptClear s
    | .poll => acceptPoll s

/-! ### Character arrivals -/

/-- A complete character reaches the frame assembler (R120). -/
def assemble (c : LineChar) (s : State) : State :=
  let l := s.lineIf
  let own := s.station.effective.station
  match l.assembler with
  | .hunt => if characterError c || !c.mark then s else s.withLineIf (addressCharacter own c.data l)
  | .length r =>
    if characterError c then s.withLineIf (discardFrame false l)
    else if c.mark then s.withLineIf (addressCharacter own c.data l)
    else s.withLineIf (lengthCharacter r c.data l)
  | .data r =>
    if characterError c then s.withLineIf (discardFrame false l)
    else if c.mark then s.withLineIf (addressCharacter own c.data l)
    else s.withLineIf (dataCharacter r c.data l)
  | .check r =>
    if characterError c then s.withLineIf (discardFrame false l)
    else if c.mark then s.withLineIf (addressCharacter own c.data l)
    else checkCharacter r c.data s

/-- The receiver is within a character, so that one can arrive: not while the terminal reset input is asserted nor while a
reply is sent (R119). -/
def mayArrive (s : State) : Bool :=
  !s.terminalReset && !sendingReply s.lineIf && s.lineIf.receiver == .receiving

/-- A character's arrival, at the sample of its stop bit: after a low one the receiver waits for the line to go high
(R119). -/
def arrive (c : LineChar) (s : State) : State :=
  if mayArrive s then
    assemble c (s.withLineIf { s.lineIf with receiver := if c.stop then .idle else .waitHigh })
  else s

/-- CHARACTER_ARRIVAL (R120). -/
def execCharacterArrival (samples : BitVec 12) (s : State) : Host.Outcome State Fault Refusal :=
  .next (atEvent (arrive (receivedChar samples)) s)

/-- The kind of the frame whose check character is next, if the assembler is in CHECK. -/
def checkKind (l : LineInterface) : Option FrameKind :=
  match l.assembler with
  | .check r => some r.kind
  | .hunt => none
  | .length _ => none
  | .data _ => none

/-- A good character with its mark clear. -/
def goodCharacter (b : Byte) : LineChar := { data := b, mark := false, parity := parityOf b false, stop := true }

/-- The arrival of the check character of a frame of this kind; with no such frame in CHECK it does not come about. -/
def checkArrives (kind : FrameKind) (b : Byte) (s : State) : State :=
  if checkKind s.lineIf = some kind then arrive (goodCharacter b) s else s

/-- ORDERS (R123). -/
def execOrders (check : Byte) (s : State) : Host.Outcome State Fault Refusal :=
  .next (atEvent (checkArrives .orders check) s)

/-- CLEAR (R125). -/
def execClear (check : Byte) (s : State) : Host.Outcome State Fault Refusal :=
  .next (atEvent (checkArrives .clear check) s)

/-- POLL (R126). -/
def execPoll (check : Byte) (s : State) : Host.Outcome State Fault Refusal :=
  .next (atEvent (checkArrives .poll check) s)

/-! ### The reply -/

/-- The turnaround gap expires, if it runs: the reply is composed, its records leave the upstream queue, the counts and
flags are cleared, and sending begins (R126, R127). -/
def composeReply (s : State) : State :=
  match s.lineIf.reply with
  | .turnaround _ =>
    let bytes := replyBytes s
    freePlaces (upstreamFull s)
      (s.withLineIf
        { s.lineIf with
          reply := .sending bytes (bytes.length * characterQuarters s.station.effective.rate)
          receiver := .idle
          upstream := s.lineIf.upstream.drop (replyCount s)
          discards := 0, roomFlag := false, overflow := false })
  | .idle => s
  | .sending _ _ => s

/-- TURNAROUND_GAP_EXPIRY (R127). -/
def execTurnaroundGapExpiry (s : State) : Host.Outcome State Fault Refusal := .next (atEvent composeReply s)

/-- The end of the reply, if one is sent: the driver enable is deasserted and the receiver resumes in HUNT (R126). -/
def endReply (s : State) : State :=
  if sendingReply s.lineIf then s.withLineIf { hunting s.lineIf with reply := .idle, receiver := .idle } else s

/-- REPLY_SENT (R126). -/
def execReplySent (s : State) : Host.Outcome State Fault Refusal := .next (atEvent endReply s)

/-- The line goes high: a receiver waiting for it is idle again (R119). -/
def lineHigh (s : State) : State :=
  if s.lineIf.receiver = .waitHigh then s.withLineIf { s.lineIf with receiver := .idle } else s

/-- LINE_GOES_HIGH (R119). -/
def execLineGoesHigh (s : State) : Host.Outcome State Fault Refusal := .next (atEvent lineHigh s)

end Sys2Proof.Machine
end

