-- ==== Sys2Proof/Machine/Record.lean ====
section
/-! DEFINITION. The station record (chapter 12): RECORD-SELECT, RECORD-WRITE, RECORD-COMMIT, RECORD-LOCK and the end of a
programming operation. -/

namespace Sys2Proof.Machine

/-- RECORD-SELECT (R136). -/
def selectField (field : BitVec 4) (s : State) : State := s.withPort { s.port with select := field }

/-- RECORD-SELECT (R136). -/
def execRecordSelect (argument : BitVec 12) (s : State) : Host.Outcome State Fault Refusal :=
  .next (atEvent (whenTaken (selectField (fieldOf argument))) s)

/-- The field is one of 0..8 and not committed (R137). -/
def fieldOpen (r : Station) (field : BitVec 4) : Bool :=
  decide (field.toNat ≤ 8) && !sparseGet false r.committed field.toNat

/-- Whether a requested operation may start on this record, its field apart (R137). -/
def programmable (r : Station) : Bool := r.programming.isNone && !r.lockInEffect

/-- A request: the operation starts, or is ignored (R137). -/
def request (operation : Program) (s : State) : State :=
  let fieldOk :=
    match operation with
    | .write field _ => fieldOpen s.station field
    | .commit field => fieldOpen s.station field
    | .lock => true
  if programmable s.station && fieldOk then
    s.withStation
      { s.station with programming := some { operation := operation, left := Config.programQuarters } }
  else s

/-- RECORD-WRITE (R137). -/
def execRecordWrite (argument : BitVec 12) (s : State) : Host.Outcome State Fault Refusal :=
  .next (atEvent (whenTaken (request (.write (fieldOf argument) (valueOf argument)))) s)

/-- RECORD-COMMIT (R137). -/
def execRecordCommit (argument : BitVec 12) (s : State) : Host.Outcome State Fault Refusal :=
  .next (atEvent (whenTaken (request (.commit (fieldOf argument)))) s)

/-- RECORD-LOCK (R137). -/
def execRecordLock (_argument : BitVec 12) (s : State) : Host.Outcome State Fault Refusal :=
  .next (atEvent (whenTaken (request .lock)) s)

/-- The record after an operation's completion: bits go from 0 to 1 only (R138). -/
def programmed (operation : Program) (r : Station) : Station :=
  match operation with
  | .write field value =>
    { r with cells := sparseSet 0 r.cells field.toNat (sparseGet 0 r.cells field.toNat ||| value), programming := none }
  | .commit field => { r with committed := sparseSet false r.committed field.toNat true, programming := none }
  | .lock => { r with lockMark := true, programming := none }

/-- The running operation ends, if one runs (R138). -/
def programEnds (s : State) : State :=
  match s.station.programming with
  | none => s
  | some p => s.withStation (programmed p.operation s.station)

/-- PROGRAMMING_OPERATION_END (R138). -/
def execProgrammingOperationEnd (s : State) : Host.Outcome State Fault Refusal := .next (atEvent programEnds s)

end Sys2Proof.Machine
end

