-- ==== Sys2Proof/Machine/Sustain.lean ====
section
/-! DEFINITION. The supply monitor, the sustain generator and the issuer (chapters 5 and 6): SUPPLY_DROOP, SUPPLY_RECOVER,
SETTLE_TIMER_EXPIRY, CYCLE_START, ADDRESS_WINDOW. -/

namespace Sys2Proof.Machine

/-! ### The sustain cycle -/

/-- The effective dead time of a timing (R84). -/
def effectiveDead (t : Timing) : Nat := min t.dead ((t.period - 24) / 2)

/-- The pulse width of a timing (R84). -/
def pulseWidth (t : Timing) : Nat := (t.period - 8 - 2 * effectiveDead t) / 2

/-- The quarter at which the address slot starts (R79). -/
def slotStart (t : Timing) : Nat := 2 * pulseWidth t + 2 * effectiveDead t

/-- The length of the address slot (R84). -/
def slotLength (t : Timing) : Nat := t.period - 2 * pulseWidth t - 2 * effectiveDead t

/-- The window divider in force (R81). -/
def windowDivider (s : State) : Nat := dividerValue s.station.effective.divider

/-! ### The supply monitor -/

/-- The supply is below droop (R76): LOW, the settle timer cancelled; from GOOD the sustain stops (R83). -/
def supplyBelow (s : State) : State :=
  match s.sustain.supplyState with
  | .low => s
  | .settling => s.withSustain { s.sustain with supplyState := .low, settle := none }
  | .good => lose (s.withSustain { s.sustain with supplyState := .low })

/-- The supply is above recover (R76): from LOW, SETTLING with the settle timer started. -/
def supplyAbove (s : State) : State :=
  match s.sustain.supplyState with
  | .low => s.withSustain { s.sustain with supplyState := .settling, settle := some Config.settleQuarters }
  | .settling => s
  | .good => s

/-- The monitor compares the supply with the threshold pair (R75); a supply equal to a threshold is neither below nor above
it. -/
def compareSupply (s : State) : State :=
  if s.sustain.supply < droopOf s.station.effective.pair then supplyBelow s
  else if recoverOf s.station.effective.pair < s.sustain.supply then supplyAbove s
  else s

/-- The supply moves to a level; while the terminal reset input is asserted no comparison is made (R75). -/
def supplyMoves (millivolts : Nat) (s : State) : State :=
  let t := s.withSustain { s.sustain with supply := millivolts }
  if s.terminalReset then t else compareSupply t

/-- SUPPLY_DROOP (R76). -/
def execSupplyDroop (millivolts : Nat) (s : State) : Host.Outcome State Fault Refusal :=
  .next (atEvent (supplyMoves millivolts) s)

/-- SUPPLY_RECOVER (R76). -/
def execSupplyRecover (millivolts : Nat) (s : State) : Host.Outcome State Fault Refusal :=
  .next (atEvent (supplyMoves millivolts) s)

/-- The settle timer expires, if it runs: GOOD, and the sustain starts if it can (R76, R78). -/
def settleExpires (s : State) : State :=
  if s.sustain.settle.isSome then
    startWhenReady (s.withSustain { s.sustain with supplyState := .good, settle := none })
  else s

/-- SETTLE_TIMER_EXPIRY (R76). -/
def execSettleTimerExpiry (s : State) : Host.Outcome State Fault Refusal := .next (atEvent settleExpires s)

/-! ### Cycle starts -/

/-- The divider count after a cycle start: it returns to 0 from d - 1 (R80). -/
def nextDivider (d count : Nat) : Nat := if count + 1 < d then count + 1 else 0

/-- A cycle start after the first (R80): with the enable off the sustain stops as a loss; otherwise pending timing becomes
effective and the divider count advances. While the panel is DARK no cycle is in progress and none starts. -/
def cycleStarts (s : State) : State :=
  if s.sustain.panelState = .dark then s
  else if s.sustain.enable = false then lose s
  else
    s.withSustain
      { s.sustain with
        effectiveTiming := s.sustain.pendingTiming
        divider := nextDivider (windowDivider s) s.sustain.divider
        cycle := some { place := 0, drive := none } }

/-- CYCLE_START (R80). -/
def execCycleStart (s : State) : Host.Outcome State Fault Refusal := .next (atEvent cycleStarts s)

/-! ### Address windows -/

/-- The cycle in progress at the start of its address slot, driving `item` in it (R70). -/
def openSlot (item : Option StrikeItem) (g : Sustain) : Sustain :=
  { g with cycle := some { place := slotStart g.effectiveTiming, drive := item } }

/-- The priming window (R71, R82): the bulk strike darkens the panel, the panel enters LIVE, the scanner becomes ACTIVE. -/
def primingWindow (s : State) : State :=
  activateScanner
    (raiseFlag .panel
      ((s.withSustain { openSlot (some .bulk) s.sustain with panelState := .live }).withPanel { s.panel with lit := [] }))

/-- A window on a LIVE panel (R69): the head item leaves the queue and is applied, or the window passes unused. -/
def liveWindow (s : State) : State :=
  match s.strikes.items with
  | [] => s.withSustain (openSlot none s.sustain)
  | item :: rest =>
    ((s.withSustain (openSlot (some item) s.sustain)).withStrikes { s.strikes with items := rest }).withPanel
      { s.panel with lit := applyItem item s.panel.lit }

/-- An address window (R81): it opens only while the panel is PRIMING or LIVE, in a cycle whose divider count is 0. -/
def windowOpens (s : State) : State :=
  if s.sustain.divider ≠ 0 then s
  else
    match s.sustain.panelState with
    | .dark => s
    | .priming => primingWindow s
    | .live => liveWindow s

/-- ADDRESS_WINDOW (R69, R71). -/
def execAddressWindow (s : State) : Host.Outcome State Fault Refusal := .next (atEvent windowOpens s)

end Sys2Proof.Machine
end

