-- ==== Sys2Proof/Machine/Resets.lean ====
section
/-! DEFINITION. The resets (chapters 4, 6, 12): POWER_ON_RESET, TERMINAL_RESET, TERMINAL_RESET_RELEASE. -/

namespace Sys2Proof.Machine

/-- The station record after a reset: the effective copy loaded, lock-in-effect copied, an operation abandoned; cells and
marks kept (R135, R136, R138). -/
def loadedStation (r : Station) : Station :=
  { r with lockInEffect := r.lockMark, effective := effectiveOf r.cells r.committed, programming := none }

/-- The station values of the sustain timing (R86). -/
def stationTiming (e : Effective) : Timing := { period := e.period, dead := e.dead }

/-- What both resets give every block (R5, R58, R65, R68, R86, R88, R90, R104, R109, R113, R117, R120, R124, R126, R132,
R133, R136). The shadow image, glyph memory, lock set and station record are as before; the scan timer is stopped. What is
kept beyond that, and the level of the terminal reset input, are the model's choices (log entry 7). -/
def resetBlocks (s : State) : State :=
  let station := loadedStation s.station
  let timing := stationTiming station.effective
  { State.reset with
    pending := s.pending
    engine := { s.engine with held := none, arbiter := .localCh }
    supervision := { State.reset.supervision with route := station.effective.route }
    sustain :=
      { State.reset.sustain with
        supply := s.sustain.supply, pendingTiming := timing, effectiveTiming := timing }
    panel := { s.panel with lit := [] }
    touch := { s.touch with timer := none, record := .idle }
    station := station }

/-- The scan timer starts (R111) and the supply monitor compares the supply (R75, R139). -/
def startRunning (s : State) : State := compareSupply (s.withTouch { s.touch with timer := some Config.scanQuarters })

/-- Power-on reset at its end (R139): besides, the shadow image and the glyph memory are empty and no set is locked. DESIGN
CHOICE, where the terminal reset input was asserted: the model takes it as deasserted at the end of power-on reset, so that the
monitor compares and the scan timer starts; no rule speaks of that case (log entry 7). -/
def powerOn (s : State) : State :=
  let t := resetBlocks s
  startRunning (t.withEngine { t.engine with shadow := [], glyphs := [], lockSet := 0 })

/-- The assertion of the terminal reset input (R58). -/
def assertReset (s : State) : State := (resetBlocks s).withTerminalReset true

/-- The release of the terminal reset input (R75, R111, R136). An input not asserted is not released. -/
def releaseReset (s : State) : State := if s.terminalReset then startRunning (s.withTerminalReset false) else s

/-- POWER_ON_RESET (R139). -/
def execPowerOnReset (s : State) : Host.Outcome State Fault Refusal := .next (atEvent powerOn s)

/-- TERMINAL_RESET (R58). -/
def execTerminalReset (s : State) : Host.Outcome State Fault Refusal := .next (atEvent assertReset s)

/-- TERMINAL_RESET_RELEASE (R136). -/
def execTerminalResetRelease (s : State) : Host.Outcome State Fault Refusal := .next (atEvent releaseReset s)

end Sys2Proof.Machine
end

