-- ==== Sys2Proof/Machine/TouchPanel.lean ====
section
/-! DEFINITION. The touch panel (chapter 9): the scan result, the touch filter, press records and their route: SCAN_EVENT. -/

namespace Sys2Proof.Machine

/-- What the blocked beams of one axis name: none, no single run, or the middle beam of the run (R112). -/
inductive Axis where
  | clear | broken | at (beam : BitVec 4)
  deriving DecidableEq, Repr

/-- The blocked beams of one axis, in order. -/
def blockedBeams (sample : BitVec 16) : List Nat := (List.range 16).filter fun j => sample.getLsbD j

/-- The reading of one axis (R112): the blocked beams are one run when its ends are as far apart as it has beams, and the
coordinate is first + (len - 1) / 2. -/
def axisOf (sample : BitVec 16) : Axis :=
  match blockedBeams sample with
  | [] => .clear
  | first :: rest =>
    let last := (first :: rest).getLast (by simp)
    if last - first = rest.length then .at (BitVec.ofNat 4 (first + rest.length / 2)) else .broken

/-- A scan result (R112). -/
inductive ScanResult where
  | nothing | ambiguous | cell (c : TouchCell)
  deriving DecidableEq, Repr

/-- The scan result of a sample: tx from the vertical run, ty from the horizontal run (R112). -/
def scanResult (horizontal vertical : BitVec 16) : ScanResult :=
  match axisOf horizontal, axisOf vertical with
  | .clear, .clear => .nothing
  | .at ty, .at tx => .cell { tx := tx, ty := ty }
  | _, _ => .ambiguous

/-- The touch state record after a scan result in IDLE and CANDIDATE (R114), with the cell of the press emitted, if any. -/
def filterCandidate (n : Nat) (cell : TouchCell) (count : Nat) (r : ScanResult) : TouchRecord × Option TouchCell :=
  match r with
  | .nothing => (.idle, none)
  | .ambiguous => (.idle, none)
  | .cell d =>
    if d = cell then
      if count + 1 = n then (.held cell none 0, some cell) else (.candidate cell (count + 1), none)
    else (.candidate d 1, none)

/-- The touch state record after a scan result in HELD (R115), with the cell of the press emitted, if any. -/
def filterHeld (n : Nat) (cell : TouchCell) (candidate : Option (TouchCell × Nat)) (gone : Nat) (r : ScanResult) :
    TouchRecord × Option TouchCell :=
  match r with
  | .nothing => if gone + 1 = n then (.idle, none) else (.held cell none (gone + 1), none)
  | .ambiguous => (.held cell candidate gone, none)
  | .cell d =>
    if d = cell then (.held cell none 0, none)
    else
      match candidate with
      | none => (.held cell (some (d, 1)) 0, none)
      | some (e, k) =>
        if d = e then
          if k + 1 = n then (.held d none 0, some d) else (.held cell (some (d, k + 1)) 0, none)
        else (.held cell (some (d, 1)) 0, none)

/-- The touch filter with filter count `n` (R114, R115). -/
def filterStep (n : Nat) (t : TouchRecord) (r : ScanResult) : TouchRecord × Option TouchCell :=
  match t with
  | .idle =>
    match r with
    | .cell c => (.candidate c 1, none)
    | .nothing => (.idle, none)
    | .ambiguous => (.idle, none)
  | .candidate cell count => filterCandidate n cell count r
  | .held cell candidate gone => filterHeld n cell candidate gone r

/-- A press record meets the upstream queue: it joins, or is dropped with the overflow flag set (R117). -/
def pressUpstream (c : TouchCell) (s : State) : State :=
  if s.lineIf.upstream.length < Config.recordCapacity then
    s.withLineIf { s.lineIf with upstream := s.lineIf.upstream ++ [.touch c] }
  else s.withLineIf { s.lineIf with overflow := true }

/-- A press record meets the local input queue: it joins, raising INPUT when the queue was empty, or is dropped with the
overflow flag set (R117). -/
def pressLocal (c : TouchCell) (s : State) : State :=
  if s.port.input.length < Config.recordCapacity then
    raiseWhen s.port.input.isEmpty .input (s.withPort { s.port with input := s.port.input ++ [.touch c] })
  else s.withPort { s.port with overflow := true }

/-- A press record is sent by the touch route in force (R116). -/
def sendPress (c : TouchCell) (s : State) : State :=
  match s.supervision.route with
  | .noMaster => s
  | .toLine => pressUpstream c s
  | .toLocal => pressLocal c s
  | .toBoth => pressLocal c (pressUpstream c s)

/-- The filter count N in force (R113). -/
def filterCount (s : State) : Nat := filterValue s.station.effective.filter

/-- The scan event (R111): the beams are sampled, the timer restarts, the filter takes the result. While the terminal reset
input is asserted the timer is stopped and no scan is made (R118). DESIGN CHOICE: the samples of a SCAN_EVENT sent then are still
taken as the levels of the beam inputs, which the model's own scan after the release samples (log entry 5). -/
def scan (horizontal vertical : BitVec 16) (s : State) : State :=
  let t := s.withTouch { s.touch with horizontal := horizontal, vertical := vertical }
  if s.terminalReset then t
  else
    let out := filterStep (filterCount s) s.touch.record (scanResult horizontal vertical)
    let u := t.withTouch { t.touch with timer := some Config.scanQuarters, record := out.1 }
    match out.2 with
    | none => u
    | some c => sendPress c u

/-- SCAN_EVENT (R111). -/
def execScanEvent (horizontal vertical : BitVec 16) (s : State) : Host.Outcome State Fault Refusal :=
  .next (atPress (scan horizontal vertical) s)

end Sys2Proof.Machine
end

