-- ==== Sys2Proof/Machine/Idle.lean ====
section
/-! DEFINITION. What the block does while no command waits (log entry 2): it carries out the steps still due of the event in
progress, and when none is due one quarter of 0.25 microseconds passes: the sustain cycle moves on and the timers run down, each
having its own event when it ends. -/

namespace Sys2Proof.Machine

/-- The cycle moves on one quarter (R79): the window opens at the start of the address slot of a cycle whose divider count is
0 (R81), and the next cycle starts at quarter P. -/
def tickCycle (s : State) : State :=
  match s.sustain.cycle with
  | none => s
  | some c =>
    let moved := s.withSustain { s.sustain with cycle := some { c with place := c.place + 1 } }
    if c.place + 1 = slotStart s.sustain.effectiveTiming then
      if s.sustain.divider = 0 then atEvent windowOpens s else moved
    else if s.sustain.effectiveTiming.period ≤ c.place + 1 then atEvent cycleStarts s
    else moved

/-- The settle timer runs down (R75). -/
def tickSettle (s : State) : State :=
  match s.sustain.settle with
  | none => s
  | some n => if n ≤ 1 then atEvent settleExpires s else s.withSustain { s.sustain with settle := some (n - 1) }

/-- The programming operation runs (R137). -/
def tickProgram (s : State) : State :=
  match s.station.programming with
  | none => s
  | some p =>
    if p.left ≤ 1 then atEvent programEnds s
    else s.withStation { s.station with programming := some { p with left := p.left - 1 } }

/-- The scan timer runs down; the scan event samples the beams as they stand (R111). -/
def tickScan (s : State) : State :=
  match s.touch.timer with
  | none => s
  | some n =>
    if n ≤ 1 then atPress (scan s.touch.horizontal s.touch.vertical) s
    else s.withTouch { s.touch with timer := some (n - 1) }

/-- The turnaround gap or the sending of a reply runs down (R126). -/
def tickReply (s : State) : State :=
  match s.lineIf.reply with
  | .idle => s
  | .turnaround n =>
    if n ≤ 1 then atEvent composeReply s else s.withLineIf { s.lineIf with reply := .turnaround (n - 1) }
  | .sending bytes n =>
    if n ≤ 1 then atEvent endReply s else s.withLineIf { s.lineIf with reply := .sending bytes (n - 1) }

/-- One quarter passes. -/
def tick (s : State) : State := tickReply (tickScan (tickProgram (tickSettle (tickCycle s))))

/-- The block without a command: the next step due, or one quarter of time, before which an event in progress ends. -/
def idleStep (s : State) : State :=
  match dueStep s with
  | some i => withinEvent (runInternal i) s
  | none => tick (finish s)

end Sys2Proof.Machine
end

