-- ==== Sys2Proof/Machine/Orders.lean ====
section
/-! DEFINITION. The orders as commands (chapters 2, 3, 4, 7, 8): NOP to REPAINT and TAKE to TIMING. Their words stand in the
channel's FIFO, where ORDER writes and ORDERS frames put them. A command is the order's next step: the decoder acts on it when
it reaches it, and the arbiter grants its piece when that channel is the one it grants. -/

namespace Sys2Proof.Machine

/-- The decoder of `ch` has an order of this kind to act on (R50). -/
def orderReached (kind : OrderKind) (ch : Channel) (s : State) : Bool :=
  decodeDue ch s && frontKind (s.chan ch) == some kind

/-- The order in progress on `ch` is of this kind, and the arbiter grants its piece now (R6). -/
def orderGranted (kind : OrderKind) (ch : Channel) (s : State) : Bool :=
  grantee s == some ch && (s.chan ch).order.map orderKind == some kind

/-- The decoder acts on an order of this kind, if it reaches one. -/
def startOrder (kind : OrderKind) (ch : Channel) (s : State) : State :=
  if orderReached kind ch s then decodeStep ch s else s

/-- The arbiter grants the piece of an order of this kind, if it is the one to be granted. -/
def grantOrder (kind : OrderKind) (ch : Channel) (s : State) : State :=
  if orderGranted kind ch s then grantTo ch s else s

/-- A context-only order as a command: the decoder carries it out (R50). -/
def contextCommand (kind : OrderKind) (ch : Channel) (s : State) : State :=
  stepWhen (orderReached kind ch s) (decodeStep ch) s

/-- A granted order as a command: its start, if it is reached, and then the grant of its next piece, if it is granted. -/
def grantedCommand (kind : OrderKind) (ch : Channel) (s : State) : State :=
  stepWhen (orderReached kind ch s || orderGranted kind ch s) (fun t => grantOrder kind ch (startOrder kind ch t)) s

/-- NOP (R49). -/
def execNop (ch : Channel) (s : State) : Host.Outcome State Fault Refusal := .next (contextCommand .nop ch s)
/-- MOVE (R18). -/
def execMove (ch : Channel) (s : State) : Host.Outcome State Fault Refusal := .next (contextCommand .move ch s)
/-- DOT (R20). -/
def execDot (ch : Channel) (s : State) : Host.Outcome State Fault Refusal := .next (grantedCommand .dot ch s)
/-- LINE (R21 to R24). -/
def execLine (ch : Channel) (s : State) : Host.Outcome State Fault Refusal := .next (grantedCommand .line ch s)
/-- BLOCK (R25). -/
def execBlock (ch : Channel) (s : State) : Host.Outcome State Fault Refusal := .next (grantedCommand .block ch s)
/-- RASTER (R26 to R29). -/
def execRaster (ch : Channel) (s : State) : Host.Outcome State Fault Refusal := .next (grantedCommand .raster ch s)
/-- TEXT (R39 to R45). -/
def execText (ch : Channel) (s : State) : Host.Outcome State Fault Refusal := .next (grantedCommand .text ch s)
/-- NEWLINE (R46). -/
def execNewline (ch : Channel) (s : State) : Host.Outcome State Fault Refusal := .next (contextCommand .newline ch s)
/-- MARGIN (R47). -/
def execMargin (ch : Channel) (s : State) : Host.Outcome State Fault Refusal := .next (contextCommand .margin ch s)
/-- MODE (R52). -/
def execMode (ch : Channel) (s : State) : Host.Outcome State Fault Refusal := .next (contextCommand .mode ch s)
/-- CLIP (R52). -/
def execClip (ch : Channel) (s : State) : Host.Outcome State Fault Refusal := .next (contextCommand .clip ch s)
/-- GLYPH (R36 to R38). -/
def execGlyph (ch : Channel) (s : State) : Host.Outcome State Fault Refusal := .next (grantedCommand .glyph ch s)
/-- WIPE (R30 to R33). -/
def execWipe (ch : Channel) (s : State) : Host.Outcome State Fault Refusal := .next (grantedCommand .wipe ch s)
/-- PASS (R59). -/
def execPass (ch : Channel) (s : State) : Host.Outcome State Fault Refusal := .next (grantedCommand .pass ch s)
/-- REPAINT (R96). -/
def execRepaint (ch : Channel) (s : State) : Host.Outcome State Fault Refusal := .next (grantedCommand .repaint ch s)
/-- SUPERVISE TAKE (R105), and the halt of a local SUPERVISE or of an unassigned function (R102, R103). -/
def execTake (ch : Channel) (s : State) : Host.Outcome State Fault Refusal := .next (grantedCommand .take ch s)
/-- SUPERVISE GIVE (R106). -/
def execGive (ch : Channel) (s : State) : Host.Outcome State Fault Refusal := .next (grantedCommand .give ch s)
/-- SUPERVISE AREA (R109). -/
def execArea (ch : Channel) (s : State) : Host.Outcome State Fault Refusal := .next (grantedCommand .area ch s)
/-- SUPERVISE LOCK (R110). -/
def execLock (ch : Channel) (s : State) : Host.Outcome State Fault Refusal := .next (grantedCommand .lock ch s)
/-- SUPERVISE ROUTE (R110). -/
def execRoute (ch : Channel) (s : State) : Host.Outcome State Fault Refusal := .next (grantedCommand .route ch s)
/-- SUPERVISE TIMING (R85). -/
def execTiming (ch : Channel) (s : State) : Host.Outcome State Fault Refusal := .next (grantedCommand .timing ch s)

end Sys2Proof.Machine
end

