-- ==== Sys2Proof/Machine/Dispatch.lean ====
section
/-! DEFINITION. One arm per command. -/

namespace Sys2Proof.Machine

def exec (i : Instr) (s : State) : Host.Outcome State Fault Refusal :=
  match i with
  | .powerOnReset => Sys2Proof.Machine.execPowerOnReset s
  | .terminalReset => Sys2Proof.Machine.execTerminalReset s
  | .terminalResetRelease => Sys2Proof.Machine.execTerminalResetRelease s
  | .supplyDroop millivolts => Sys2Proof.Machine.execSupplyDroop millivolts s
  | .supplyRecover millivolts => Sys2Proof.Machine.execSupplyRecover millivolts s
  | .settleTimerExpiry => Sys2Proof.Machine.execSettleTimerExpiry s
  | .cycleStart => Sys2Proof.Machine.execCycleStart s
  | .addressWindow => Sys2Proof.Machine.execAddressWindow s
  | .restoreStep => Sys2Proof.Machine.execRestoreStep s
  | .arbiterGrant => Sys2Proof.Machine.execArbiterGrant s
  | .spanRender => Sys2Proof.Machine.execSpanRender s
  | .droppedRowHandling ch => Sys2Proof.Machine.execDroppedRowHandling ch s
  | .nop ch => Sys2Proof.Machine.execNop ch s
  | .move ch => Sys2Proof.Machine.execMove ch s
  | .dot ch => Sys2Proof.Machine.execDot ch s
  | .line ch => Sys2Proof.Machine.execLine ch s
  | .block ch => Sys2Proof.Machine.execBlock ch s
  | .raster ch => Sys2Proof.Machine.execRaster ch s
  | .text ch => Sys2Proof.Machine.execText ch s
  | .newline ch => Sys2Proof.Machine.execNewline ch s
  | .margin ch => Sys2Proof.Machine.execMargin ch s
  | .mode ch => Sys2Proof.Machine.execMode ch s
  | .clip ch => Sys2Proof.Machine.execClip ch s
  | .glyph ch => Sys2Proof.Machine.execGlyph ch s
  | .wipe ch => Sys2Proof.Machine.execWipe ch s
  | .pass ch => Sys2Proof.Machine.execPass ch s
  | .repaint ch => Sys2Proof.Machine.execRepaint ch s
  | .take ch => Sys2Proof.Machine.execTake ch s
  | .give ch => Sys2Proof.Machine.execGive ch s
  | .area ch => Sys2Proof.Machine.execArea ch s
  | .lock ch => Sys2Proof.Machine.execLock ch s
  | .route ch => Sys2Proof.Machine.execRoute ch s
  | .timing ch => Sys2Proof.Machine.execTiming ch s
  | .order word => Sys2Proof.Machine.execOrder word s
  | .input => Sys2Proof.Machine.execInput s
  | .status => Sys2Proof.Machine.execStatus s
  | .ignoredWrite location word => Sys2Proof.Machine.execIgnoredWrite location word s
  | .clearLocal argument => Sys2Proof.Machine.execClearLocal argument s
  | .resume argument => Sys2Proof.Machine.execResume argument s
  | .eventAck argument => Sys2Proof.Machine.execEventAck argument s
  | .eventEnable argument => Sys2Proof.Machine.execEventEnable argument s
  | .panelOn argument => Sys2Proof.Machine.execPanelOn argument s
  | .panelOff argument => Sys2Proof.Machine.execPanelOff argument s
  | .recordSelect argument => Sys2Proof.Machine.execRecordSelect argument s
  | .recordWrite argument => Sys2Proof.Machine.execRecordWrite argument s
  | .recordCommit argument => Sys2Proof.Machine.execRecordCommit argument s
  | .recordLock argument => Sys2Proof.Machine.execRecordLock argument s
  | .programmingOperationEnd => Sys2Proof.Machine.execProgrammingOperationEnd s
  | .scanEvent horizontal vertical => Sys2Proof.Machine.execScanEvent horizontal vertical s
  | .characterStart lowSixteenths => Sys2Proof.Machine.execCharacterStart lowSixteenths s
  | .characterArrival samples => Sys2Proof.Machine.execCharacterArrival samples s
  | .orders check => Sys2Proof.Machine.execOrders check s
  | .clear check => Sys2Proof.Machine.execClear check s
  | .poll check => Sys2Proof.Machine.execPoll check s
  | .turnaroundGapExpiry => Sys2Proof.Machine.execTurnaroundGapExpiry s
  | .replySent => Sys2Proof.Machine.execReplySent s
  | .lineGoesHigh => Sys2Proof.Machine.execLineGoesHigh s

end Sys2Proof.Machine
end

