-- ==== Sys2Proof/Machine/Pins.lean ====
section
/-! DEFINITION. The output signals of section 0.7 as they stand in a state. -/

namespace Sys2Proof.Machine

/-- The place in the cycle in progress. -/
def cyclePlace (s : State) : Option Nat := s.sustain.cycle.map Cycle.place

/-- X sustain: from quarter 0 to W (R79). -/
def xSustain (s : State) : Bool :=
  match cyclePlace s with
  | none => false
  | some q => q < pulseWidth s.sustain.effectiveTiming

/-- Y sustain: from quarter W + D to 2W + D (R79). -/
def ySustain (s : State) : Bool :=
  let t := s.sustain.effectiveTiming
  match cyclePlace s with
  | none => false
  | some q => decide (pulseWidth t + effectiveDead t ≤ q) && decide (q < 2 * pulseWidth t + effectiveDead t)

/-- The strike item the address outputs carry, held from the start of the address slot to its end (R70). -/
def drivenItem (s : State) : Option StrikeItem :=
  match s.sustain.cycle with
  | none => none
  | some c => if slotStart s.sustain.effectiveTiming ≤ c.place then c.drive else none

/-- Row select: the item's row, and zero for a bulk strike and outside every window (R70). -/
def rowSelect (s : State) : Nat :=
  match drivenItem s with
  | some (.strike _ y _ _) => y.val
  | some .bulk => 0
  | none => 0

/-- Column group select (R70). -/
def groupSelect (s : State) : Nat :=
  match drivenItem s with
  | some (.strike _ _ g _) => g.val
  | some .bulk => 0
  | none => 0

/-- Cell data (R70). -/
def cellData (s : State) : Cells :=
  match drivenItem s with
  | some (.strike _ _ _ cells) => cells
  | some .bulk => 0
  | none => 0

/-- The strike item whose strike signal is pulsed: from the start of the slot's third quarter to the end of its sixth
(R70). -/
def pulsedItem (s : State) : Option StrikeItem :=
  match cyclePlace s with
  | none => none
  | some q =>
    let start := slotStart s.sustain.effectiveTiming
    if start + 2 ≤ q ∧ q < start + 6 then drivenItem s else none

/-- Write strike (R70). -/
def writeStrike (s : State) : Bool :=
  match pulsedItem s with
  | some (.strike .write _ _ _) => true
  | some (.strike .erase _ _ _) => false
  | some .bulk => false
  | none => false

/-- Erase strike (R70). -/
def eraseStrike (s : State) : Bool :=
  match pulsedItem s with
  | some (.strike .erase _ _ _) => true
  | some (.strike .write _ _ _) => false
  | some .bulk => false
  | none => false

/-- Bulk strike (R70, R71). -/
def bulkStrike (s : State) : Bool :=
  match pulsedItem s with
  | some .bulk => true
  | some (.strike _ _ _ _) => false
  | none => false

/-- Beam emitter enable: asserted except while the terminal reset input is (R111). -/
def beamEmitter (s : State) : Bool := !s.terminalReset

/-- Driver enable: asserted while a reply is sent (R126). -/
def driverEnable (s : State) : Bool := sendingReply s.lineIf

/-- The levels of a reply in the order sent: the mark bit is set in the address character alone (R126, R143). -/
def replyLevels (bytes : List Byte) : List Bool :=
  match bytes with
  | [] => []
  | address :: rest => characterBits address true ++ rest.flatMap fun b => characterBits b false

/-- Line transmit: the bit of the reply in progress, and high while none is sent (R126). -/
def lineTransmit (s : State) : Bool :=
  match s.lineIf.reply with
  | .idle => true
  | .turnaround _ => true
  | .sending bytes left =>
    let char := characterQuarters s.station.effective.rate
    (replyLevels bytes).getD ((bytes.length * char - left) * 12 / char) true

end Sys2Proof.Machine
end

