-- ==== Sys2Proof/Safety.lean ====
section
/-! DEFINITION. What a sound state of the KP512 is, part by part, in the terms the statements use. Each part is decidable or
quantifies over row-groups alone; the statements say that every step keeps it. -/

namespace Sys2Proof.Machine

/-- A sparse table in canonical form with every key below `n`. -/
abbrev TableWf {α : Type} [DecidableEq α] (d : α) (n : Nat) (m : List (Nat × α)) : Prop :=
  SparseWf d m ∧ ∀ p ∈ m, p.1 < n

/-- Every addressed store holds its canonical form: shadow image, glyph memory, panel, stale-row table, station record. -/
abbrev MemoryWf (s : State) : Prop :=
  TableWf 0 16384 s.engine.shadow ∧ TableWf 0 4096 s.engine.glyphs ∧ TableWf 0 16384 s.panel.lit ∧
    TableWf .coherent 512 s.tracker.stale ∧ TableWf 0 9 s.station.cells ∧ TableWf false 9 s.station.committed

/-- The running operation names a programmable field, 0..8 (R137). -/
def ProgramWf (s : State) : Prop :=
  match s.station.programming with
  | some { operation := .write field _, left := _ } => field.toNat ≤ 8
  | some { operation := .commit field, left := _ } => field.toNat ≤ 8
  | some { operation := .lock, left := _ } => True
  | none => True

/-- The words staged and still to come of a frame in DATA or CHECK make up its length, at most 32 words (R122). -/
def StagingWf (l : LineInterface) : Prop :=
  match l.assembler with
  | .hunt => l.staging = []
  | .length r => l.staging = [] ∧ r.high = none
  | .data r =>
    ∃ n, r.length = some n ∧ n ≤ 32 ∧ 1 ≤ r.bytesLeft ∧
      2 * l.staging.length + (if r.high.isSome then 1 else 0) + r.bytesLeft = 2 * n
  | .check r => r.high = none ∧ r.length = some l.staging.length ∧ l.staging.length ≤ 32

/-- Every FIFO, queue and count is within the capacity of section 0.4. -/
def WithinCapacities (s : State) : Prop :=
  s.lineChan.fifo.length ≤ 256 ∧ s.localChan.fifo.length ≤ 64 ∧ s.strikes.items.length ≤ 64 ∧
    s.lineIf.upstream.length ≤ 16 ∧ s.port.input.length ≤ 16 ∧ s.lineIf.discards ≤ 15 ∧ StagingWf s.lineIf

/-- The relation of the local response state to takeover and resume-awaited (R104). -/
def takeoverRelation (response : Response) (takeover resumeAwaited : Bool) : Bool :=
  match response with
  | .accept => !takeover && !resumeAwaited
  | .hold => takeover != resumeAwaited
  | .halted => !resumeAwaited

/-- The channels' states are legal: R104's table holds, the line channel is never in HOLD (R55), and a HALTED channel holds
no word and no order (R54). -/
abbrev ResponsesLegal (s : State) : Prop :=
  takeoverRelation s.localChan.response s.supervision.takeover s.supervision.resumeAwaited = true ∧
    s.lineChan.response ≠ .hold ∧
    (s.lineChan.response = .halted → s.lineChan.fifo = [] ∧ s.lineChan.order = none) ∧
    (s.localChan.response = .halted → s.localChan.fifo = [] ∧ s.localChan.order = none)

/-- What the panel state implies (R63, R78, R83, R89, R90): outside LIVE the strike queue is empty, every row BLANK and the
scanner IDLE; a cycle is in progress exactly while the sustain runs, and then the supply is GOOD; the settle timer runs
exactly in SETTLING; an IDLE scanner has no current row. -/
abbrev PanelLegal (s : State) : Prop :=
  (s.sustain.panelState ≠ .live →
    s.strikes.items = [] ∧ s.tracker.stale = allBlank ∧ s.tracker.scanner.active = false) ∧
  (s.sustain.panelState = .dark ↔ s.sustain.cycle = none) ∧
  (s.sustain.panelState ≠ .dark → s.sustain.supplyState = .good) ∧
  (s.sustain.settle.isSome = true ↔ s.sustain.supplyState = .settling) ∧
  (s.tracker.scanner.active = false → s.tracker.scanner.current = none) ∧
  (s.terminalReset = true → s.sustain.panelState = .dark ∧ s.sustain.supplyState = .low)

/-- The scanner's current row is COHERENT and its kind is BLANK or UNKNOWN (R90). -/
def CurrentCoherent (s : State) : Prop :=
  ∀ c, s.tracker.scanner.current = some c → staleAt s c.row = .coherent ∧ c.kind ≠ .coherent

/-- The same kind, row and group. -/
def sameStrike : StrikeItem → StrikeItem → Bool
  | .strike k y g _, .strike k' y' g' _ => decide (k = k') && decide (y = y') && decide (g = g')
  | .strike _ _ _ _, .bulk => false
  | .bulk, .strike _ _ _ _ => false
  | .bulk, .bulk => true

/-- No two consecutive items have the same kind, row and group (R64). -/
def noTwinNeighbours : List StrikeItem → Bool
  | [] => true
  | [_] => true
  | a :: b :: rest => !sameStrike a b && noTwinNeighbours (b :: rest)

/-- The form of the strike queue: cell sets are not empty (R62), neighbours differ (R64), and a BULK item is the oldest
(R67). -/
def QueueLegal (items : List StrikeItem) : Prop :=
  (∀ k y g cells, StrikeItem.strike k y g cells ∈ items → cells ≠ 0) ∧ noTwinNeighbours items = true ∧
    StrikeItem.bulk ∉ items.tail

/-- The timings and the divider count lie in their ranges (R81, R84, R85). -/
def TimingLegal (s : State) : Prop :=
  let ok (t : Timing) : Prop := 40 ≤ t.period ∧ t.period ≤ 160 ∧ 1 ≤ t.dead ∧ t.dead ≤ 16
  ok s.sustain.pendingTiming ∧ ok s.sustain.effectiveTiming ∧ s.sustain.divider < windowDivider s

/-- The touch state record's counts lie in the ranges of R113. -/
def TouchLegal (n : Nat) : TouchRecord → Prop
  | .idle => True
  | .candidate _ k => 1 ≤ k ∧ k < n
  | .held cell candidate gone => gone < n ∧ ∀ d k, candidate = some (d, k) → d ≠ cell ∧ 1 ≤ k ∧ k < n

/-- The panel once every item of the queue has been applied in queue order (section 7.6). -/
def projectedPanel (s : State) : List (Nat × Cells) :=
  s.strikes.items.foldl (fun lit item => applyItem item lit) s.panel.lit

/-- The projected cells of a row-group (section 7.6). -/
def projectedAt (s : State) (y : Coord) (g : Group) : Cells := sparseGet 0 (projectedPanel s) (rowKey y g)

/-- The row-group is a group at or after the next group of the scanner's current row (R99). -/
def toBeRestored (s : State) (y : Coord) (g : Group) : Bool :=
  match s.tracker.scanner.current with
  | none => false
  | some c => decide (c.row = y) && decide (c.next ≤ g)

/-- An item names a row. -/
def namesRow (y : Coord) : StrikeItem → Bool
  | .strike _ r _ _ => decide (r = y)
  | .bulk => false

/-- The panel follows the shadow: on a LIVE panel every row-group of a COHERENT row projects to its shadow, but for those
the scanner has still to restore (R99); a BLANK row is dark and no item names it (R89); and what is still to be restored of a
row taken as BLANK projects within the shadow (R100). -/
def PanelFollowsShadow (s : State) : Prop :=
  s.sustain.panelState = .live →
    (∀ y g, staleAt s y = .coherent → toBeRestored s y g = false → projectedAt s y g = shadowAt s y g) ∧
    (∀ y g, staleAt s y = .blank → panelAt s y g = 0) ∧
    (∀ y, staleAt s y = .blank → ∀ item ∈ s.strikes.items, namesRow y item = false) ∧
    (∀ c, s.tracker.scanner.current = some c → c.kind = .blank →
      ∀ g, c.next ≤ g → projectedAt s c.row g &&& ~~~shadowAt s c.row g = 0)

/-- No event is in progress and no step of the part is due: the state stands between two events. -/
abbrev AtRest (s : State) : Prop := s.event = none ∧ dueStep s = none

/-! ### Frames -/

/-- The parts of the state that the frames of the statements speak of. -/
inductive Part where
  | pending | shadow | glyphs | lockSet | held | arbiter | lineChan | localChan | takeover | area | route | items | turn
  | supply | enable | panelState | cycle | pendingTiming | effectiveTiming | divider | stale | scanner | panel
  | beams | scanTimer | touchRecord | receiver | counts | reply | upstream | input | flags | enables | select | data
  | cells | effective | programming | terminalReset
  deriving DecidableEq, Repr

/-- A part is the same in both states. -/
def SamePart (s t : State) : Part → Prop
  | .pending => t.pending = s.pending
  | .shadow => t.engine.shadow = s.engine.shadow
  | .glyphs => t.engine.glyphs = s.engine.glyphs
  | .lockSet => t.engine.lockSet = s.engine.lockSet
  | .held => t.engine.held = s.engine.held
  | .arbiter => t.engine.arbiter = s.engine.arbiter
  | .lineChan => t.lineChan = s.lineChan
  | .localChan => t.localChan = s.localChan
  | .takeover =>
    t.supervision.takeover = s.supervision.takeover ∧ t.supervision.resumeAwaited = s.supervision.resumeAwaited
  | .area => t.supervision.area = s.supervision.area
  | .route => t.supervision.route = s.supervision.route
  | .items => t.strikes.items = s.strikes.items
  | .turn => t.strikes.turn = s.strikes.turn
  | .supply =>
    t.sustain.supply = s.sustain.supply ∧ t.sustain.supplyState = s.sustain.supplyState ∧
      t.sustain.settle = s.sustain.settle
  | .enable => t.sustain.enable = s.sustain.enable
  | .panelState => t.sustain.panelState = s.sustain.panelState
  | .cycle => t.sustain.cycle = s.sustain.cycle
  | .pendingTiming => t.sustain.pendingTiming = s.sustain.pendingTiming
  | .effectiveTiming => t.sustain.effectiveTiming = s.sustain.effectiveTiming
  | .divider => t.sustain.divider = s.sustain.divider
  | .stale => t.tracker.stale = s.tracker.stale
  | .scanner => t.tracker.scanner = s.tracker.scanner
  | .panel => t.panel = s.panel
  | .beams => t.touch.horizontal = s.touch.horizontal ∧ t.touch.vertical = s.touch.vertical
  | .scanTimer => t.touch.timer = s.touch.timer
  | .touchRecord => t.touch.record = s.touch.record
  | .receiver =>
    t.lineIf.receiver = s.lineIf.receiver ∧ t.lineIf.assembler = s.lineIf.assembler ∧
      t.lineIf.staging = s.lineIf.staging
  | .counts => t.lineIf.discards = s.lineIf.discards ∧ t.lineIf.roomFlag = s.lineIf.roomFlag
  | .reply => t.lineIf.reply = s.lineIf.reply
  | .upstream => t.lineIf.upstream = s.lineIf.upstream ∧ t.lineIf.overflow = s.lineIf.overflow
  | .input => t.port.input = s.port.input ∧ t.port.overflow = s.port.overflow
  | .flags => t.port.flags = s.port.flags
  | .enables => t.port.enables = s.port.enables
  | .select => t.port.select = s.port.select
  | .data => t.port.data = s.port.data
  | .cells =>
    t.station.cells = s.station.cells ∧ t.station.committed = s.station.committed ∧
      t.station.lockMark = s.station.lockMark
  | .effective =>
    t.station.effective = s.station.effective ∧ t.station.lockInEffect = s.station.lockInEffect
  | .programming => t.station.programming = s.station.programming
  | .terminalReset => t.terminalReset = s.terminalReset

/-- Every part but those named is the same in both states. The event in progress is the model's own and not among them. -/
def OnlyChanges (parts : List Part) (s t : State) : Prop := ∀ p, p ∉ parts → SamePart s t p

/-- The part that a channel is. -/
def chanPart : Channel → Part
  | .lineCh => .lineChan
  | .localCh => .localChan

/-- The flags raised by comparison when an event ends (R60, R74, R132). -/
def endFlags : List EventFlag := [.drained, .space, .settled]

/-- The event flags after a command that raises `raised` itself: a flag set stays set, and no other flag is raised but
DRAINED, SPACE and SETTLED, which are raised when the event ends. -/
def FlagsAfter (raised : List EventFlag) (s t : State) : Prop :=
  ∀ f, (f ∉ endFlags → flagSet f t = (flagSet f s || decide (f ∈ raised))) ∧
    (flagSet f s = true → flagSet f t = true)

/-! ### Commands -/

/-- The command that an order of a kind is. -/
def orderCommand (ch : Channel) : OrderKind → Instr
  | .nop => .nop ch
  | .move => .move ch
  | .dot => .dot ch
  | .line => .line ch
  | .block => .block ch
  | .raster => .raster ch
  | .text => .text ch
  | .newline => .newline ch
  | .margin => .margin ch
  | .mode => .mode ch
  | .glyph => .glyph ch
  | .wipe => .wipe ch
  | .clip => .clip ch
  | .pass => .pass ch
  | .repaint => .repaint ch
  | .take => .take ch
  | .give => .give ch
  | .area => .area ch
  | .lock => .lock ch
  | .route => .route ch
  | .timing => .timing ch

/-- The part's own steps: the rows of the table that are no event from outside. -/
def isInternal : Instr → Bool
  | .restoreStep | .arbiterGrant | .spanRender | .droppedRowHandling _ => true
  | .nop _ | .move _ | .dot _ | .line _ | .block _ | .raster _ | .text _ | .newline _ | .margin _ | .mode _ => true
  | .clip _ | .glyph _ | .wipe _ | .pass _ | .repaint _ => true
  | .take _ | .give _ | .area _ | .lock _ | .route _ | .timing _ => true
  | .powerOnReset | .terminalReset | .terminalResetRelease => false
  | .supplyDroop _ | .supplyRecover _ | .settleTimerExpiry | .cycleStart | .addressWindow => false
  | .order _ | .input | .status | .ignoredWrite _ _ => false
  | .clearLocal _ | .resume _ | .eventAck _ | .eventEnable _ | .panelOn _ | .panelOff _ => false
  | .recordSelect _ | .recordWrite _ | .recordCommit _ | .recordLock _ | .programmingOperationEnd => false
  | .scanEvent _ _ | .characterStart _ | .characterArrival _ | .orders _ | .clear _ | .poll _ => false
  | .turnaroundGapExpiry | .replySent | .lineGoesHigh => false

/-- The decoder of `ch` reaches an order whose head word and fixed arguments are present and pass the checks (R50, R53);
`rest` stands behind it in the FIFO. -/
abbrev ReachesOrder (ch : Channel) (s : State) (kind : OrderKind) (head : Word) (args rest : List Word) : Prop :=
  (s.chan ch).response = .accept ∧ (s.chan ch).order = none ∧ (s.chan ch).fifo = head :: (args ++ rest) ∧
    headKind head = some kind ∧ args.length = argumentCount kind ∧
    (coordinateArguments kind = true → args.any badCoordinate = false) ∧
    (isSupervise head = true → ch = .lineCh)

/-- The order in progress on `ch` is `o`, and the arbiter grants its piece now (R6). -/
abbrev Granted (ch : Channel) (s : State) (o : Order) : Prop := grantee s = some ch ∧ (s.chan ch).order = some o

/-! ### Drawing -/

/-- Cell (x, y) lies in a rectangle. -/
def inRect (r : Rect) (x y : Nat) : Bool :=
  decide (r.xLo.val ≤ x) && decide (x ≤ r.xHi.val) && decide (r.yLo.val ≤ y) && decide (y ≤ r.yHi.val)

/-- Cell (x, y) is one that channel `ch` may draw: inside its clip rectangle and, for the local channel, inside the local
area (R10). -/
def mayDraw (s : State) (ch : Channel) (x y : Nat) : Bool :=
  inRect (s.chan ch).context.clip x y && (ch == .lineCh || inRect s.supervision.area x y)

/-- A cell after a span is combined: `old` before it, `inBox` when it lies in the clipped box, `on` when it lies in the
clipped on-set (R11). -/
def drawnCell (mode : Mode) (old inBox on : Bool) : Bool :=
  match mode with
  | .write => old || on
  | .erase => old && !on
  | .inverse => old != on
  | .rewrite => if inBox then on else old

/-- Cell `k` of row-group (y, g) in the shadow image. -/
def shadowCell (s : State) (y : Coord) (g : Group) (k : Nat) : Bool := (shadowAt s y g).getLsbD k

/-- The shadow image of `t` is that of `s` after span `h` is clipped and combined (R10, R11). -/
def ShadowDrawn (s t : State) (h : Held) : Prop :=
  ∀ y g k, k < 16 →
    shadowCell t y g k =
      if y = h.span.row ∧ g = h.span.group then
        let inBox := h.span.box.getLsbD k && mayDraw s h.channel (16 * g.val + k) y
        drawnCell (spanMode s h.channel h.span) (shadowCell s y g k) inBox (inBox && h.span.on.getLsbD k)
      else shadowCell s y g k

/-- Span `h` has rendered: the shadow image is drawn, and for a row that is not stale and a clipped box that is not empty
ERASE O - N and then WRITE N - O have been handed over by the engine (R12, R13). -/
def SpanDrawn (s t : State) (h : Held) : Prop :=
  let y := h.span.row
  let g := h.span.group
  ShadowDrawn s t h ∧
    t.strikes =
      if clippedBox s h.channel h.span = 0 ∨ isStale s y = true then s.strikes
      else
        { items :=
            handOver .write y g (shadowAt t y g &&& ~~~shadowAt s y g)
              (handOver .erase y g (shadowAt s y g &&& ~~~shadowAt t y g) s.strikes.items)
          turn := .engine }

/-- Channel `c` presents span `p` next, and its grant leaves the channel `d`: DOT's one cell (R20), the next span of a LINE
(R24), a BLOCK (R25), a degraded WIPE (R32), a RASTER row, whose words leave the FIFO at its first (R28), or a character
(R42). -/
def SpanPresented (c : Chan) (p : Span) (d : Chan) : Prop :=
  (∀ cell, c.order = some (.dot cell false) →
    p.row = cell.y ∧ p.group.val = cell.x.val / 16 ∧ (∀ k, k < 16 → p.box.getLsbD k = decide (k = cell.x.val % 16)) ∧
      p.on = p.box ∧ p.wipe = false ∧ d = { c with order := some (.dot cell true) }) ∧
  (∀ start stop i, c.order = some (.line start stop i) →
    p = (lineSpan start stop i).1 ∧ d = { c with order := some (.line start stop (lineSpan start stop i).2) }) ∧
  (∀ start corner n, c.order = some (.block start corner n) →
    p = rectSpan (rectOf start.x start.y corner.x corner.y) false n ∧
      d = { c with order := some (.block start corner (n + 1)) }) ∧
  (∀ r n, c.order = some (.wipeArea r n) →
    p = rectSpan r true n ∧ d = { c with order := some (.wipeArea r (n + 1)) }) ∧
  (∀ start w left image n words, c.order = some (.raster start w left image n (some words)) →
    p = rasterSpan start w image n words ∧
      d = { c with order := some (.raster start w left image (n + 1) (some words)) }) ∧
  (∀ start w left image n, c.order = some (.raster start w left image n none) →
    let words := c.fifo.take ((w + 15) / 16)
    p = rasterSpan start w image 0 words ∧
      d =
        { c with
          fifo := c.fifo.drop ((w + 15) / 16), order := some (.raster start w (left - 1) image 1 (some words)) }) ∧
  (∀ left place kept latch n, c.order = some (.text left place kept (some latch) (some n)) →
    p = charSpan c.context.size place latch.rows n) ∧
  (∀ left place kept next, c.order = some (.text left place kept none next) →
    ∃ m at' rest latch after,
      d.order = some (.text m at' rest (some latch) after) ∧ p = charSpan c.context.size place latch.rows 0)

/-- The render of the span that channel `c` was granted last leaves the channel `d`: before the last span of its order it is
unchanged; at the last the order completes, DOT and LINE with the position at their end point and pen fresh clear (R17, R20, R23),
BLOCK, a degraded WIPE and RASTER with the context kept (R25, R29, R32), TEXT with pen fresh set (R45). At the end of a RASTER
row or a character the order goes on to the next (R29, R44). -/
def Progressed (c d : Chan) : Prop :=
  (∀ cell, c.order = some (.dot cell true) →
    d = { c with order := none, context := { c.context with position := cell, penFresh := false } }) ∧
  (∀ start stop i, c.order = some (.line start stop i) →
    d =
      if lineSteps start stop < i then
        { c with order := none, context := { c.context with position := stop, penFresh := false } }
      else c) ∧
  (∀ start corner n, c.order = some (.block start corner n) →
    d = if rectSpans (rectOf start.x start.y corner.x corner.y) ≤ n then { c with order := none } else c) ∧
  (∀ r n, c.order = some (.wipeArea r n) → d = if rectSpans r ≤ n then { c with order := none } else c) ∧
  (∀ start w left image n words, c.order = some (.raster start w left image n (some words)) →
    d =
      if rasterSpans start w ≤ n then
        { c with order := if left = 0 then none else some (.raster start w left (image + 1) 0 none) }
      else c) ∧
  (∀ left place kept latch next, c.order = some (.text left place kept (some latch) next) →
    d =
      if next = none then
        { c with
          order := if left = 0 then none else some (.text left place kept none none)
          context :=
            { c.context with position := place, penFresh := if left = 0 then true else c.context.penFresh } }
      else c)

/-- An effective copy that is decoded from a record's cell values and committed marks (R135). -/
def Decoded (r : Station) (e : Effective) : Prop :=
  let cell (f : Nat) : Nat := (sparseGet 0 r.cells f).toNat
  let value (f uncommitted : Nat) (decoding : Nat → Nat) : Nat :=
    if sparseGet false r.committed f then decoding (cell f) else uncommitted
  (match e.station with | some n => n.val | none => 31) = value 0 31 (· % 32) ∧
    [Rate.bps1200, .bps2400, .bps4800, .bps9600][value 1 0 (· % 4)]? = some e.rate ∧
    [Noise.sixteenth, .quarter][value 2 0 (· % 2)]? = some e.noise ∧
    e.period = value 3 80 (fun n => if n < 40 then 40 else if 160 < n then 160 else n) ∧
    e.dead = value 4 4 (fun n => n % 16 + 1) ∧
    [Divider.one, .two, .four, .four][value 5 0 (· % 4)]? = some e.divider ∧
    [Pair.a, .b, .c, .c][value 6 1 (· % 4)]? = some e.pair ∧
    [FilterCount.two, .four, .eight, .eight][value 7 1 (· % 4)]? = some e.filter ∧
    [Route.noMaster, .toLine, .toLocal, .toBoth][value 8 1 (· % 4)]? = some e.route

/-- What a loss by droop or panel-off leaves (R68, R83, R95): the panel DARK with no cycle, the queue empty with its turn
kept, every row BLANK, the scanner IDLE at sweep row 0, and a span that was held rendered into the shadow alone. -/
def Lost (s t : State) : Prop :=
  t.sustain.panelState = .dark ∧ t.sustain.cycle = none ∧ t.strikes = { s.strikes with items := [] } ∧
    (∀ y, staleAt t y = .blank) ∧ t.tracker.scanner = { active := false, sweep := 0, current := none } ∧
    t.engine.held = none ∧
    (s.engine.held = none → t.engine.shadow = s.engine.shadow ∧ t.lineChan = s.lineChan ∧ t.localChan = s.localChan) ∧
    (∀ h, s.engine.held = some h → ShadowDrawn s t h ∧ t.chan h.channel = spanRendered (s.chan h.channel))

/-- The sustain has started (R78): pending timing effective, divider count 0, the first cycle begun, the panel PRIMING. -/
def Started (s t : State) : Prop :=
  t.sustain.panelState = .priming ∧ t.sustain.effectiveTiming = s.sustain.pendingTiming ∧ t.sustain.divider = 0 ∧
    t.sustain.cycle = some { place := 0, drive := none }

/-- The blocked beams of one axis are those from `first` to `first + len - 1` (R112). -/
def IsRun (sample : BitVec 16) (first len : Nat) : Prop :=
  1 ≤ len ∧ first + len ≤ 16 ∧ ∀ j, j < 16 → sample.getLsbD j = (decide (first ≤ j) && decide (j < first + len))

end Sys2Proof.Machine
end

