-- ==== Sys2Proof/Certificates/Slice0/Obligations.lean ====
section
/-! DEFINITION. The statements about the KP512, one `def Obligations.<Name> : Prop` each. A command is one step of an event: its
direct effect, or one of the part's own steps of it (log entry 3, a choice of the model); the statements speak of that step. -/

open Sys2Proof Sys2Proof.Machine

/-! ### The machine and its events -/

/-- One step is the front command on the state with the queue's rest. -/
def Obligations.StepRunsTheFrontCommand : Prop :=
  ∀ (c : Instr) (rest : List Instr) (s : State), s.pending = c :: rest → step s = exec c (s.withPending rest)

/-- A block without a command lets one quarter pass (log entry 2, a choice of the model): no timer or pulse ends in it here,
and each timer that runs has one quarter less. -/
def Obligations.IdleBlockLetsAQuarterPass : Prop :=
  ∀ s : State, s.pending = [] → AtRest s →
    (∀ c, s.sustain.cycle = some c →
      c.place + 1 ≠ slotStart s.sustain.effectiveTiming ∧ c.place + 1 < s.sustain.effectiveTiming.period) →
    (∀ n, s.sustain.settle = some n → 1 < n) → (∀ n, s.touch.timer = some n → 1 < n) →
    (∀ p, s.station.programming = some p → 1 < p.left) → s.lineIf.reply = .idle →
    step s =
      .next
        (((s.withSustain
          { s.sustain with
            cycle := s.sustain.cycle.map fun c => { c with place := c.place + 1 }
            settle := s.sustain.settle.map fun n => n - 1 }).withStation
          { s.station with programming := s.station.programming.map fun p => { p with left := p.left - 1 } }).withTouch
            { s.touch with timer := s.touch.timer.map fun n => n - 1 })

/-- A command from outside first carries the event in progress to its end (log entry 3), but for an event that has come to a
RESUME (log entry 22) and a scan event behind one that has freed places in a full queue (log entry 10). -/
def Obligations.OutsideEventFinishesTheOneBefore : Prop :=
  ∀ (c : Instr) (s : State), isInternal c = false → resumeOpen s = false →
    (placesOpen s = true → ∀ h v, c ≠ .scanEvent h v) → AtRest (finish s) →
    exec c s = exec c (finish s)

/-- One of the part's own steps that is not due changes nothing (log entry 3). -/
def Obligations.StepNotDueChangesNothing : Prop :=
  ∀ (s : State) (ch : Channel) (kind : OrderKind),
    (restoreDue s = false → exec .restoreStep s = .next s) ∧
    (grantee s = none → exec .arbiterGrant s = .next s) ∧
    (renderDue s = false → exec .spanRender s = .next s) ∧
    (droppedRowDue ch s = false → exec (.droppedRowHandling ch) s = .next s) ∧
    (orderReached kind ch s = false → orderGranted kind ch s = false → exec (orderCommand ch kind) s = .next s)

/-- DRAINED, SPACE and SETTLED are raised at the end of an event over which the local channel has become idle, its free
count has risen to 32 or more, or the panel has become settled (R60, R132, R74). The event began at rest, or `s.event` notes
what held before it. -/
def Obligations.EventEndRaisesItsFlags : Prop :=
  ∀ (c : Instr) (s t : State), (isInternal c = true ∨ AtRest s) →
    c ≠ .powerOnReset → c ≠ .terminalReset → (∀ a, c ≠ .eventAck a) →
    exec c s = .next t → t.event = none →
    let before := s.event.getD (observe s)
    flagSet .drained t = (flagSet .drained s || (!before.idle && chanIdle t.localChan)) ∧
    flagSet .space t = (flagSet .space s || (!before.roomy && decide (32 ≤ fifoFree t .localCh))) ∧
    flagSet .settled t = (flagSet .settled s || (!before.settled && isSettled t))

/-! ### The raster engine -/

/-- SPAN_RENDER: a held span renders when the render condition holds (R7, R10, R11, R12, R13), and its order progresses or
completes (R15, R17, R20, R23, R25, R29, R32). -/
def Obligations.HeldSpanRenders : Prop :=
  ∀ (s : State) (h : Held), MemoryWf s → s.engine.held = some h → renderCondition s h = true →
    ∃ t, exec .spanRender s = .next t ∧ SpanDrawn s t h ∧ t.engine.held = none ∧
      t.chan h.channel = spanRendered (s.chan h.channel) ∧ Progressed (s.chan h.channel) (t.chan h.channel) ∧
      OnlyChanges [.shadow, .held, .items, .turn, chanPart h.channel, .flags] s t ∧ FlagsAfter [] s t

/-- The arbiter's table (R6): a channel that alone presents is granted, of two the one not granted last, and none while a
span is held; the grant sets the arbiter memory. Under takeover the local channel is granted nothing. -/
def Obligations.ArbiterAlternates : Prop :=
  ∀ s : State,
    (s.engine.held.isSome = true → grantee s = none) ∧
    (s.engine.held = none →
      (presents s .lineCh = true → presents s .localCh = false → grantee s = some .lineCh) ∧
      (presents s .lineCh = false → presents s .localCh = true → grantee s = some .localCh) ∧
      (presents s .lineCh = true → presents s .localCh = true →
        ∃ ch, grantee s = some ch ∧ ch ≠ s.engine.arbiter) ∧
      (presents s .lineCh = false → presents s .localCh = false → grantee s = none)) ∧
    (∀ ch, grantee s = some ch → ∃ t, exec .arbiterGrant s = .next t ∧ t.engine.arbiter = ch) ∧
    (ResponsesLegal s → s.supervision.takeover = true → grantee s ≠ some .localCh)

/-- ARBITER_GRANT, and DOT, LINE, BLOCK, RASTER, TEXT and a WIPE on the degraded path: the span granted is the next of the
order's (R20, R24, R25, R28, R32, R42), and the order advances at the grant (R51). It renders at its grant when the render
condition holds, and is held otherwise (R6, R7, R15). -/
def Obligations.GrantedSpanIsPlaced : Prop :=
  ∀ (s : State) (ch : Channel) (o : Order) (p : Span) (c : Chan) (cmd : Instr),
    MemoryWf s → Granted ch s o → unitReady s ch = false → spanReady s ch = some (p, c) →
    (cmd = .arbiterGrant ∨ cmd = orderCommand ch (orderKind o)) →
    SpanPresented (s.chan ch) p c ∧
    ∃ t, exec cmd s = .next t ∧ t.engine.arbiter = ch ∧ FlagsAfter [] s t ∧
      (renderCondition s { channel := ch, span := p } = true →
        SpanDrawn s t { channel := ch, span := p } ∧ t.engine.held = none ∧ t.chan ch = spanRendered c ∧
        Progressed c (t.chan ch) ∧ OnlyChanges [.shadow, .arbiter, .items, .turn, chanPart ch, .flags] s t) ∧
      (renderCondition s { channel := ch, span := p } = false →
        t.engine.held = some { channel := ch, span := p } ∧ t.chan ch = c ∧
        OnlyChanges [.held, .arbiter, chanPart ch, .flags] s t)

/-- Room in the strike queue is shared (R65, R66): a producer that alone claims is served with 2 free items, of two the one
the room turn does not name; with fewer than 2 free neither is; and a service sets the room turn. -/
def Obligations.RoomIsShared : Prop :=
  ∀ s : State,
    (∀ h, s.engine.held = some h → needsRoom s h = true →
      (strikeFree s < 2 → renderDue s = false ∧ restoreDue s = false) ∧
      (2 ≤ strikeFree s → scannerClaims s = false → renderDue s = true ∧ restoreDue s = false) ∧
      (2 ≤ strikeFree s → scannerClaims s = true →
        renderDue s = (s.strikes.turn == .scanner) ∧ restoreDue s = (s.strikes.turn == .engine)) ∧
      (renderDue s = true → ∃ t, exec .spanRender s = .next t ∧ t.strikes.turn = .engine)) ∧
    ((∀ h, s.engine.held = some h → needsRoom s h = false) → scannerClaims s = true →
      (2 ≤ strikeFree s → restoreDue s = true) ∧ (strikeFree s < 2 → restoreDue s = false)) ∧
    (scannerClaims s = false → restoreDue s = false) ∧
    (restoreDue s = true → ∃ t, exec .restoreStep s = .next t ∧ t.strikes.turn = .scanner)

/-- No grant to the local channel and no render of its spans changes a shadow cell outside the local area in force, and
none but a bulk WIPE of the whole panel one outside its clip rectangle (R10, R33). -/
def Obligations.LocalDrawingStaysInItsArea : Prop :=
  ∀ (s t : State) (y : Coord) (g : Group) (k : Nat), MemoryWf s → k < 16 → shadowCell t y g k ≠ shadowCell s y g k →
    ((∃ p, s.engine.held = some { channel := .localCh, span := p }) → exec .spanRender s = .next t →
      mayDraw s .localCh (16 * g.val + k) y = true) ∧
    (grantee s = some .localCh → exec .arbiterGrant s = .next t →
      inRect s.supervision.area (16 * g.val + k) y = true ∧
      ((s.chan .localCh).order ≠ some .wipe → mayDraw s .localCh (16 * g.val + k) y = true))

/-! ### Figures -/

/-- The walk of a LINE (R21): its step count, the cell of each step, its ends; and no cell is placed twice. -/
def Obligations.LineWalksItsMajorAxis : Prop :=
  ∀ (p q : Point) (i : Nat), i ≤ lineSteps p q →
    let dx := ((q.x.val : Int) - p.x.val).natAbs
    let dy := ((q.y.val : Int) - p.y.val).natAbs
    let sx : Int := if p.x ≤ q.x then 1 else -1
    let sy : Int := if p.y ≤ q.y then 1 else -1
    lineSteps p q = (if dy ≤ dx then dx else dy) ∧
    (dy ≤ dx →
      ((lineCell p q i).1 : Int) = p.x.val + i * sx ∧
      ((lineCell p q i).2 : Int) = p.y.val + sy * ((2 * i * dy + dx) / (2 * dx) : Nat)) ∧
    (dx < dy →
      ((lineCell p q i).2 : Int) = p.y.val + i * sy ∧
      ((lineCell p q i).1 : Int) = p.x.val + sx * ((2 * i * dx + dy) / (2 * dy) : Nat)) ∧
    lineCell p q 0 = (p.x.val, p.y.val) ∧ lineCell p q (lineSteps p q) = (q.x.val, q.y.val) ∧
    (∀ j, j ≤ lineSteps p q → lineCell p q j = lineCell p q i → j = i)

/-- A LINE is cut into spans in step order, each the run of steps from its first on that lie in one row-group (R24). -/
def Obligations.LineIsCutIntoSpans : Prop :=
  ∀ (p q : Point) (i : Nat), i ≤ lineSteps p q →
    let sp := (lineSpan p q i).1
    let j := (lineSpan p q i).2
    i < j ∧ j ≤ lineSteps p q + 1 ∧ sp.on = sp.box ∧ sp.wipe = false ∧
    (∀ k, i ≤ k → k < j → (lineCell p q k).2 = sp.row.val ∧ (lineCell p q k).1 / 16 = sp.group.val ∧
      sp.box.getLsbD ((lineCell p q k).1 % 16) = true) ∧
    (∀ b, sp.box.getLsbD b = true → ∃ k, i ≤ k ∧ k < j ∧ (lineCell p q k).1 % 16 = b) ∧
    (j ≤ lineSteps p q → (lineCell p q j).2 ≠ sp.row.val ∨ (lineCell p q j).1 / 16 ≠ sp.group.val)

/-- A LINE reached alone while the panel is not LIVE is drawn whole at one event (R21, R23, R11, R13): exactly the cells of
its steps that the channel may draw are combined, each once, and the position becomes its end point with pen fresh clear. -/
def Obligations.LineIsDrawnWhole : Prop :=
  ∀ (s : State) (ch : Channel) (head x y : Word),
    MemoryWf s → PanelLegal s → s.sustain.panelState ≠ .live → s.engine.held = none →
    (s.chan (otherChannel ch)).order = none → (s.chan (otherChannel ch)).fifo = [] →
    ReachesOrder ch s .line head [x, y] [] →
    let old := (s.chan ch).context
    let p := old.position
    let q : Point := { x := coordOf x, y := coordOf y }
    let first := if old.penFresh then 0 else 1
    let t := finish s
    AtRest t ∧
    t.chan ch = { s.chan ch with fifo := [], context := { old with position := q, penFresh := false } } ∧
    ∀ (row : Coord) (g : Group) (k : Nat), k < 16 →
      ((∃ i, first ≤ i ∧ i ≤ lineSteps p q ∧ lineCell p q i = (16 * g.val + k, row.val)) →
        mayDraw s ch (16 * g.val + k) row = true →
        shadowCell t row g k = drawnCell old.mode (shadowCell s row g k) true true) ∧
      ((∀ i, first ≤ i → i ≤ lineSteps p q → lineCell p q i ≠ (16 * g.val + k, row.val)) ∨
          mayDraw s ch (16 * g.val + k) row = false →
        shadowCell t row g k = shadowCell s row g k)

/-- The spans of a rectangle (R25, R32): rows from the top down, groups from left to right, each the cells of the rectangle
in its row-group; every cell of the rectangle lies in one of them, and no row-group has two. -/
def Obligations.RectangleIsCutIntoSpans : Prop :=
  ∀ (r : Rect) (wipe : Bool), r.xLo ≤ r.xHi → r.yLo ≤ r.yHi →
    let across := r.xHi.val / 16 - r.xLo.val / 16 + 1
    rectSpans r = (r.yHi.val - r.yLo.val + 1) * across ∧
    (∀ n, n < rectSpans r →
      (rectSpan r wipe n).row.val = r.yHi.val - n / across ∧
      (rectSpan r wipe n).group.val = r.xLo.val / 16 + n % across ∧
      (rectSpan r wipe n).on = (rectSpan r wipe n).box ∧ (rectSpan r wipe n).wipe = wipe ∧
      ∀ k, k < 16 →
        (rectSpan r wipe n).box.getLsbD k =
          (decide (r.xLo.val ≤ 16 * (rectSpan r wipe n).group.val + k) &&
            decide (16 * (rectSpan r wipe n).group.val + k ≤ r.xHi.val))) ∧
    (∀ x y : Coord, inRect r x y = true →
      ∃ n, n < rectSpans r ∧ (rectSpan r wipe n).row = y ∧ (rectSpan r wipe n).group.val = x.val / 16 ∧
        (rectSpan r wipe n).box.getLsbD (x.val % 16) = true) ∧
    (∀ n m, n < rectSpans r → m < rectSpans r → (rectSpan r wipe n).row = (rectSpan r wipe m).row →
      (rectSpan r wipe n).group = (rectSpan r wipe m).group → n = m)

/-- A BLOCK reached alone while the panel is not LIVE fills its rectangle at one event (R25, R11, R13): exactly the cells of
the rectangle that the channel may draw are combined, and position and pen fresh are as they were. -/
def Obligations.BlockIsDrawnWhole : Prop :=
  ∀ (s : State) (ch : Channel) (head x y : Word),
    MemoryWf s → PanelLegal s → s.sustain.panelState ≠ .live → s.engine.held = none →
    (s.chan (otherChannel ch)).order = none → (s.chan (otherChannel ch)).fifo = [] →
    ReachesOrder ch s .block head [x, y] [] →
    let old := (s.chan ch).context
    let r := rectOf old.position.x old.position.y (coordOf x) (coordOf y)
    let t := finish s
    AtRest t ∧ t.chan ch = { s.chan ch with fifo := [] } ∧
    ∀ (row : Coord) (g : Group) (k : Nat), k < 16 →
      shadowCell t row g k =
        if inRect r (16 * g.val + k) row && mayDraw s ch (16 * g.val + k) row then
          drawnCell old.mode (shadowCell s row g k) true true
        else shadowCell s row g k

/-- The spans of a drawn RASTER row (R26, R27, R28): their row and groups, their boxes up to the panel's edge, and as on-set
the cells whose data value is 1, the most significant bit of a word leftmost. -/
def Obligations.RasterRowIsCutIntoSpans : Prop :=
  ∀ (start : Point) (width image n : Nat) (words : List Word),
    1 ≤ width → width ≤ 512 → image ≤ start.y.val → n < rasterSpans start width →
    let right := min (start.x.val + width - 1) 511
    let sp := rasterSpan start width image n words
    rasterSpans start width = right / 16 - start.x.val / 16 + 1 ∧
    sp.row.val = start.y.val - image ∧ sp.group.val = start.x.val / 16 + n ∧ sp.wipe = false ∧
    ∀ k, k < 16 →
      let x := 16 * sp.group.val + k
      let j := x - start.x.val
      sp.box.getLsbD k = (decide (start.x.val ≤ x) && decide (x ≤ right)) ∧
      sp.on.getLsbD k = (sp.box.getLsbD k && (words.getD (j / 16) 0).getLsbD (15 - j % 16))

/-- RASTER and DROPPED_ROW_HANDLING: at the grant of a row's first span its data words leave the FIFO together and are
latched; a row below the panel leaves with its words, without a grant, and the last such row ends the order (R28, R29).
That a dropped row waits for ACCEPT is the model's reading (log entry 19). -/
def Obligations.RasterTakesItsRows : Prop :=
  ∀ (s : State) (ch : Channel) (p : Point) (w left image n : Nat),
    let count := rasterWords w
    left ≠ 0 → count ≤ (s.chan ch).fifo.length →
    (Granted ch s (.raster p w left image n none) → image ≤ p.y.val →
      ∃ t, exec (.raster ch) s = .next t ∧ (t.chan ch).fifo = (s.chan ch).fifo.drop count ∧
        (2 ≤ rasterSpans p w →
          (t.chan ch).order = some (.raster p w (left - 1) image 1 (some ((s.chan ch).fifo.take count))))) ∧
    ((s.chan ch).response = .accept → (s.chan ch).order = some (.raster p w left image n none) → p.y.val < image →
      ∃ t, exec (.droppedRowHandling ch) s = .next t ∧
        t.chan ch =
          { s.chan ch with
            fifo := (s.chan ch).fifo.drop count
            order := if left = 1 then none else some (.raster p w (left - 1) (image + 1) 0 none) } ∧
        OnlyChanges [chanPart ch, .flags] s t ∧ FlagsAfter [] s t)

/-- The cells of a character at sizes 1 and 2 (R41, R42): a box of 8 by 16 or 16 by 32 cells; each glyph cell covers `scaleOf` by `scaleOf` panel cells from the box's
top left corner, cells off the panel are dropped, and no span holds a cell outside the box. -/
def Obligations.CharacterCoversItsBox : Prop :=
  ∀ (size : Size) (place : Point) (rows : List Byte),
    scaleOf .one = 1 ∧ scaleOf .two = 2 ∧ advanceOf size = 8 * scaleOf size ∧ pitchOf size = 16 * scaleOf size ∧
    (∀ r c a b, r < 16 → c < 8 → a < scaleOf size → b < scaleOf size →
      let x := place.x.val + scaleOf size * c + a
      let y := place.y.val + pitchOf size - 1 - (scaleOf size * r + b)
      x ≤ 511 → y ≤ 511 →
      ∃ n, n < charSpans size place ∧ (charSpan size place rows n).row.val = y ∧
        (charSpan size place rows n).group.val = x / 16 ∧
        (charSpan size place rows n).box.getLsbD (x % 16) = true ∧
        (charSpan size place rows n).on.getLsbD (x % 16) = (rows.getD r 0).getLsbD (7 - c)) ∧
    (∀ n k, n < charSpans size place → k < 16 → (charSpan size place rows n).box.getLsbD k = true →
      let x := 16 * (charSpan size place rows n).group.val + k
      let y := (charSpan size place rows n).row.val
      place.x.val ≤ x ∧ x < place.x.val + advanceOf size ∧ x ≤ 511 ∧
        place.y.val ≤ y ∧ y < place.y.val + pitchOf size ∧ y ≤ 511)

/-- TEXT: at the grant of a character's first span its code leaves the front of the FIFO or the record, and the slot's rows
are latched (R40, R43); at the grant and render of its last span the cursor and the position advance, or wrap to the margin
one pitch down (R44), and the last character completes the order with pen fresh set (R45). -/
def Obligations.TextDrawsItsCharacters : Prop :=
  ∀ (s : State) (ch : Channel) (left : Nat) (place : Point) (kept : Option Byte),
    let c := s.chan ch
    let size := c.context.size
    (∀ m, left ≠ 0 → Granted ch s (.text left place kept none m) → 2 ≤ charSpans size place →
      ∃ t, exec (.text ch) s = .next t ∧
        (∀ code, kept = some code →
          t.chan ch =
            { c with
              order := some (.text (left - 1) place none
                (some { code := code, rows := glyphRows s.engine.glyphs code }) (some 1)) }) ∧
        (∀ w rest, kept = none → c.fifo = w :: rest →
          t.chan ch =
            { c with
              fifo := rest
              order := some (.text (left - 1) place (if 2 ≤ left then some (lowByte w) else none)
                (some { code := highByte w, rows := glyphRows s.engine.glyphs (highByte w) }) (some 1)) })) ∧
    (∀ latch n, Granted ch s (.text left place kept (some latch) (some n)) → n + 1 = charSpans size place →
      let wraps := 512 ≤ place.x.val + advanceOf size
      let next : Point :=
        { x := if wraps then c.context.margin else coord (place.x.val + advanceOf size)
          y := if wraps then coord ((place.y.val + 512 - pitchOf size) % 512) else place.y }
      ∃ t, exec (.text ch) s = .next t ∧
        (t.engine.held = none → (t.chan ch).context.position = next ∧
          (left = 0 → (t.chan ch).order = none ∧ (t.chan ch).context.penFresh = true) ∧
          (left ≠ 0 → (t.chan ch).order = some (.text left next kept none none))) ∧
        (t.engine.held ≠ none → t.chan ch = { c with order := some (.text left next kept (some latch) none) }))

/-- WIPE: the path chosen at its start (R30), and its grant on the bulk path, which for a local WIPE whose local area has
narrowed turns to the degraded path instead (R31, R33, R67, R98). -/
def Obligations.WipeTakesItsPath : Prop :=
  ∀ (s : State) (ch : Channel),
    (∀ head rest, s.engine.held.isSome = true → ReachesOrder ch s .wipe head [] rest →
      ∃ t, exec (.wipe ch) s = .next t ∧
        t.chan ch =
          { s.chan ch with
            fifo := rest
            order :=
              (if ch = .lineCh then some (s.chan ch).context.clip
                else rectMeet (s.chan ch).context.clip s.supervision.area).map
                  fun r => if r = Rect.whole then .wipe else .wipeArea r 0 } ∧
        OnlyChanges [chanPart ch, .flags] s t ∧ FlagsAfter [] s t) ∧
    (Granted ch s .wipe → (ch = .lineCh ∨ s.supervision.area = Rect.whole) →
      ∃ t, exec (.wipe ch) s = .next t ∧ (∀ y g, shadowAt t y g = 0) ∧ t.chan ch = { s.chan ch with order := none } ∧
        FlagsAfter [] s t ∧
        (s.sustain.panelState = .live →
          t.strikes = { s.strikes with items := [.bulk] } ∧ (∀ y, staleAt t y = .coherent) ∧
          t.tracker.scanner = { s.tracker.scanner with active := false, current := none } ∧
          OnlyChanges [.shadow, .arbiter, .items, .stale, .scanner, chanPart ch, .flags] s t) ∧
        (s.sustain.panelState ≠ .live → OnlyChanges [.shadow, .arbiter, chanPart ch, .flags] s t)) ∧
    (Granted .localCh s .wipe → s.supervision.area ≠ Rect.whole →
      ∃ t, exec (.wipe .localCh) s = .next t ∧
        t.localChan =
          { s.localChan with
            order := (rectMeet s.localChan.context.clip s.supervision.area).map fun r => .wipeArea r 0 } ∧
        OnlyChanges [.arbiter, .localChan, .flags] s t ∧ FlagsAfter [] s t)

/-! ### The channels -/

/-- MOVE: its three words leave the FIFO, the position becomes (x, y) and pen fresh is set, with no grant; behind an order in
progress it waits (R18). -/
def Obligations.MoveIsCarriedOut : Prop :=
  ∀ (s : State) (ch : Channel) (head x y : Word) (rest : List Word),
    (ReachesOrder ch s .move head [x, y] rest →
      ∃ t, exec (.move ch) s = .next t ∧
        t.chan ch =
          { s.chan ch with
            fifo := rest
            context :=
              { (s.chan ch).context with position := { x := coordOf x, y := coordOf y }, penFresh := true } } ∧
        OnlyChanges [chanPart ch, .flags] s t ∧ FlagsAfter [] s t) ∧
    ((s.chan ch).order.isSome = true → exec (.move ch) s = .next s)

/-- NEWLINE and MARGIN (R46, R47): x becomes the margin and y goes down one pitch, with 512 added when negative, and pen fresh
is set; the margin becomes the x of the position. -/
def Obligations.NewlineAndMarginAreCarriedOut : Prop :=
  ∀ (s : State) (ch : Channel) (head : Word) (rest : List Word),
    let old := (s.chan ch).context
    let down : Int := old.position.y.val - pitchOf old.size
    (ReachesOrder ch s .newline head [] rest →
      ∃ (t : State) (y : Coord), exec (.newline ch) s = .next t ∧ (y.val : Int) = (if down < 0 then down + 512 else down) ∧
        t.chan ch =
          { s.chan ch with
            fifo := rest, context := { old with position := { x := old.margin, y := y }, penFresh := true } } ∧
        OnlyChanges [chanPart ch, .flags] s t ∧ FlagsAfter [] s t) ∧
    (ReachesOrder ch s .margin head [] rest →
      ∃ t, exec (.margin ch) s = .next t ∧
        t.chan ch = { s.chan ch with fifo := rest, context := { old with margin := old.position.x } } ∧
        OnlyChanges [chanPart ch, .flags] s t ∧ FlagsAfter [] s t)

/-- NOP, MODE and CLIP (R49, R52): NOP changes nothing but that its word leaves; MODE takes mode and size from bits 2..0 of its
head word; CLIP takes its four words normalized. -/
def Obligations.NopModeAndClipAreCarriedOut : Prop :=
  ∀ (s : State) (ch : Channel) (head a b c d : Word) (rest : List Word),
    let old := (s.chan ch).context
    (ReachesOrder ch s .nop head [] rest →
      ∃ t, exec (.nop ch) s = .next t ∧ t.chan ch = { s.chan ch with fifo := rest } ∧
        OnlyChanges [chanPart ch, .flags] s t ∧ FlagsAfter [] s t) ∧
    (ReachesOrder ch s .mode head [] rest →
      ∃ (t : State) (mode : Mode) (size : Size), exec (.mode ch) s = .next t ∧
        [Mode.write, .erase, .inverse, .rewrite][head.toNat % 4]? = some mode ∧
        (size = .two ↔ head.getLsbD 2 = true) ∧
        t.chan ch = { s.chan ch with fifo := rest, context := { old with mode := mode, size := size } } ∧
        OnlyChanges [chanPart ch, .flags] s t ∧ FlagsAfter [] s t) ∧
    (ReachesOrder ch s .clip head [a, b, c, d] rest →
      ∃ (t : State) (r : Rect), exec (.clip ch) s = .next t ∧
        r.xLo.val = min (a.toNat % 512) (c.toNat % 512) ∧ r.yLo.val = min (b.toNat % 512) (d.toNat % 512) ∧
        r.xHi.val = max (a.toNat % 512) (c.toNat % 512) ∧ r.yHi.val = max (b.toNat % 512) (d.toNat % 512) ∧
        t.chan ch = { s.chan ch with fifo := rest, context := { old with clip := r } } ∧
        OnlyChanges [chanPart ch, .flags] s t ∧ FlagsAfter [] s t)

/-- The start of a granted order (R19, R23, R26, R30, R37, R40, R51, R59, R96, R102): its words leave the FIFO together and its
record is created, or it completes at its start. A piece that is not granted at once waits; a piece that is granted at once is
granted by the same command, which then does what it does in the state with the order started. -/
def Obligations.GrantedOrderStarts : Prop :=
  ∀ (s : State) (ch : Channel) (kind : OrderKind) (head : Word) (args rest : List Word),
    ReachesOrder ch s kind head args rest →
    kind ∈ [.dot, .line, .block, .raster, .text, .glyph, .wipe, .pass, .repaint, .take, .give, .area, .lock, .route, .timing] →
    let old := (s.chan ch).context
    let word (i : Nat) : Word := args.getD i 0
    let value (i : Nat) : Coord := coordOf (word i)
    let q : Point := { x := value 0, y := value 1 }
    let first := if old.penFresh then 0 else 1
    let drawsLine := first ≤ lineSteps old.position q
    let extent (i : Nat) : Nat := if (word i).toNat % 512 = 0 then 512 else (word i).toNat % 512
    let started : Chan :=
      { s.chan ch with
        fifo := rest
        order :=
          (match kind with
          | .dot => some (.dot q false)
          | .line => if drawsLine then some (.line old.position q first) else none
          | .block => some (.block old.position q 0)
          | .raster => some (.raster old.position (extent 0) (extent 1) 0 0 none)
          | .text =>
            if head.toNat % 256 = 0 then none else some (.text (head.toNat % 256) old.position none none none)
          | .glyph => some (.glyph (head.extractLsb' 0 8))
          | .wipe =>
            (if ch = .lineCh then some old.clip else rectMeet old.clip s.supervision.area).map
              fun r => if r = Rect.whole then .wipe else .wipeArea r 0
          | .pass => some (.pass (head.extractLsb' 0 12))
          | .repaint => some .repaint
          | .take => some (.supervise .take)
          | .give => some (.supervise .give)
          | .area => some (.supervise (.area (value 0) (value 1) (value 2) (value 3)))
          | .lock => some (.supervise (.lock ((word 0).extractLsb' 0 4)))
          | .route => some (.supervise (.route (routeOfCode ((word 0).toNat % 4))))
          | .timing => some (.supervise (.timing (word 0) (word 1)))
          | _ => none)
        context :=
          (match kind with
          | .line => if drawsLine then old else { old with position := q, penFresh := false }
          | .text => if head.toNat % 256 = 0 then { old with penFresh := true } else old
          | _ => old) }
    let u := (beginEvent s).withChan ch started
    (grantee u ≠ some ch →
      ∃ t, exec (orderCommand ch kind) s = .next t ∧ t.chan ch = started ∧ OnlyChanges [chanPart ch, .flags] s t ∧
        FlagsAfter [] s t) ∧
    (grantee u = some ch →
      (∃ o, started.order = some o ∧ orderKind o = kind) ∧
      exec (orderCommand ch kind) s = exec (orderCommand ch kind) u)

/-- A malformed order halts its channel (R53, R54, R102, R103): ARGUMENT for a coordinate word with one of bits 15..9 set, at the
event at which its words are present; PRIVILEGE for any SUPERVISE of the local channel and CODE for function 6..15 of the line
channel's, on the head word alone. The FIFO and the record are emptied and the context kept. That a SUPERVISE of
an unassigned function is met by TAKE's command is the model's choice (log entry 11). -/
def Obligations.MalformedOrderHalts : Prop :=
  ∀ (s : State) (ch : Channel) (head : Word) (rest : List Word),
    let halted (t : State) (cause : HaltCause) : Prop :=
      t.chan ch = { s.chan ch with fifo := [], order := none, response := .halted, cause := cause } ∧
      OnlyChanges [chanPart ch, .flags] s t ∧ FlagsAfter (if ch = .localCh then [.halt] else []) s t
    (s.chan ch).response = .accept → (s.chan ch).order = none → (s.chan ch).fifo = head :: rest →
    (∀ kind, headKind head = some kind → coordinateArguments kind = true → (isSupervise head = true → ch = .lineCh) →
      argumentCount kind ≤ rest.length → (∃ w ∈ rest.take (argumentCount kind), 512 ≤ w.toNat) →
      ∃ t, exec (orderCommand ch kind) s = .next t ∧ halted t .argument) ∧
    (head.toNat / 4096 = 14 → ch = .localCh →
      ∃ t, exec (orderCommand ch ((headKind head).getD .take)) s = .next t ∧ halted t .privilege) ∧
    (head.toNat / 4096 = 14 → 6 ≤ head.toNat % 16 → ch = .lineCh →
      ∃ t, exec (.take ch) s = .next t ∧ halted t .code)

/-- ORDER: a word is taken into the local FIFO in ACCEPT with room, and refused otherwise, raising REFUSED; while the terminal
reset input is asserted the write is lost (R55, R129). -/
def Obligations.OrderWordIsTakenOrRefused : Prop :=
  ∀ (s : State) (w : Word), AtRest s →
    (s.terminalReset = true → exec (.order w) s = .next s) ∧
    (s.terminalReset = false → s.localChan.response = .accept → s.localChan.fifo.length < 64 →
      ∃ t, exec (.order w) s = .next t ∧ t.localChan = { s.localChan with fifo := s.localChan.fifo ++ [w] } ∧
        OnlyChanges [.localChan, .flags] s t ∧ FlagsAfter [] s t) ∧
    (s.terminalReset = false → (s.localChan.response ≠ .accept ∨ 64 ≤ s.localChan.fifo.length) →
      ∃ t, exec (.order w) s = .next t ∧ OnlyChanges [.flags] s t ∧ FlagsAfter [.refused] s t ∧ t.event = none)

/-- CLEAR-LOCAL (R56). -/
def Obligations.ClearLocalEmptiesTheChannel : Prop :=
  ∀ (s : State) (a : BitVec 12), AtRest s → s.terminalReset = false →
    ∃ t, exec (.clearLocal a) s = .next t ∧
      t.localChan.fifo = [] ∧ t.localChan.order = none ∧ t.localChan.cause = .code ∧
      t.localChan.context =
        { position := { x := 0, y := 0 }, penFresh := true, mode := .write, size := .one, margin := 0,
          clip := { xLo := 0, yLo := 0, xHi := 511, yHi := 511 } } ∧
      t.localChan.response = (if s.supervision.takeover = true then .hold else .accept) ∧
      t.supervision = { s.supervision with resumeAwaited := false } ∧
      t.engine = { s.engine with held := s.engine.held.filter fun h => h.channel != .localCh } ∧
      OnlyChanges [.localChan, .held, .takeover, .flags] s t ∧ FlagsAfter [] s t ∧
      (t.event = none → flagSet .drained t = (flagSet .drained s || !chanIdle s.localChan))

/-- GLYPH at its grant (R38): slot n receives the 16 rows of the data words, row 2j in the high byte of word j; a local load into a
locked set is refused and halts the channel with cause LOCKED. -/
def Obligations.GlyphLoadsItsSlot : Prop :=
  ∀ (s : State) (ch : Channel) (slot : Byte), MemoryWf s → Granted ch s (.glyph slot) →
    (ch = .lineCh ∨ s.engine.lockSet.getLsbD (slot.toNat / 64) = false →
      ∃ t, exec (.glyph ch) s = .next t ∧
        (∀ j, j < 8 →
          (glyphRows t.engine.glyphs slot)[2 * j]? = ((s.chan ch).fifo[j]?).map highByte ∧
          (glyphRows t.engine.glyphs slot)[2 * j + 1]? = ((s.chan ch).fifo[j]?).map lowByte) ∧
        (∀ n, n ≠ slot → glyphRows t.engine.glyphs n = glyphRows s.engine.glyphs n) ∧
        t.chan ch = { s.chan ch with fifo := (s.chan ch).fifo.drop 8, order := none } ∧ t.engine.held = none ∧
        OnlyChanges [.glyphs, .arbiter, chanPart ch, .flags] s t ∧ FlagsAfter [] s t) ∧
    (ch = .localCh → s.engine.lockSet.getLsbD (slot.toNat / 64) = true →
      ∃ t, exec (.glyph ch) s = .next t ∧
        t.localChan = { s.localChan with fifo := [], order := none, response := .halted, cause := .locked } ∧
        t.engine.held = none ∧ OnlyChanges [.arbiter, .localChan, .flags] s t ∧ FlagsAfter [.halt] s t)

/-- PASS at its grant (R59): its record joins the other master's queue as its newest, INPUT is raised when the local input queue
was empty, and the order completes; while the target queue is full the unit is not presented. -/
def Obligations.PassJoinsTheOtherQueue : Prop :=
  ∀ (s : State) (ch : Channel) (payload : BitVec 12),
    (ch = .lineCh → Granted ch s (.pass payload) →
      s.port.input.length < 16 ∧
      ∃ t, exec (.pass ch) s = .next t ∧ t.port.input = s.port.input ++ [.pass payload] ∧
        t.port.overflow = s.port.overflow ∧ t.lineChan = { s.lineChan with order := none } ∧
        OnlyChanges [.arbiter, .lineChan, .input, .flags] s t ∧
        FlagsAfter (if s.port.input = [] then [.input] else []) s t) ∧
    (ch = .localCh → Granted ch s (.pass payload) →
      s.lineIf.upstream.length < 16 ∧
      ∃ t, exec (.pass ch) s = .next t ∧ t.lineIf.upstream = s.lineIf.upstream ++ [.pass payload] ∧
        t.lineIf.overflow = s.lineIf.overflow ∧ t.localChan = { s.localChan with order := none } ∧
        OnlyChanges [.arbiter, .localChan, .upstream, .flags] s t ∧ FlagsAfter [] s t) ∧
    ((s.chan ch).order = some (.pass payload) →
      (ch = .lineCh → 16 ≤ s.port.input.length → presents s ch = false) ∧
      (ch = .localCh → 16 ≤ s.lineIf.upstream.length → presents s ch = false))

/-- Power-on reset and the assertion of the terminal reset input give every block its reset values (R5, R58, R63, R65, R86, R88,
R90, R104, R113, R132, R133, R136), the effective copy decoded by R135; a terminal reset keeps the shadow image, the glyph memory
and the lock set, which power-on reset empties. The model's choices among the clauses: that the supply level and the queue of
commands are kept, that the returned word is 0, and that power-on reset leaves the terminal reset input deasserted and compares
the supply whatever that input was (log entry 7). That the effective copy and lock-in-effect are loaded at the assertion of
terminal reset is the model's reading (log entry 13). -/
def Obligations.ResetsGiveTheirValues : Prop :=
  ∀ (s : State) (c : Instr), AtRest s → (c = .powerOnReset ∨ c = .terminalReset) →
    ∃ t, exec c s = .next t ∧ t.event = none ∧ t.pending = s.pending ∧
      (∀ ch, t.chan ch =
        { fifo := [], order := none, response := .accept, cause := .code
          context :=
            { position := { x := 0, y := 0 }, penFresh := true, mode := .write, size := .one, margin := 0,
              clip := { xLo := 0, yLo := 0, xHi := 511, yHi := 511 } } }) ∧
      t.supervision.takeover = false ∧ t.supervision.resumeAwaited = false ∧
      t.supervision.area = { xLo := 0, yLo := 0, xHi := 511, yHi := 511 } ∧
      t.supervision.route = t.station.effective.route ∧
      t.engine.held = none ∧ t.engine.arbiter = .localCh ∧
      t.strikes = { items := [], turn := .scanner } ∧
      t.sustain.enable = true ∧ t.sustain.panelState = .dark ∧ t.sustain.cycle = none ∧ t.sustain.divider = 0 ∧
      t.sustain.pendingTiming = { period := t.station.effective.period, dead := t.station.effective.dead } ∧
      t.sustain.effectiveTiming = t.sustain.pendingTiming ∧ t.sustain.supply = s.sustain.supply ∧
      (∀ y, staleAt t y = .blank) ∧ t.tracker.scanner = { active := false, sweep := 0, current := none } ∧
      t.touch.record = .idle ∧ t.lineIf = State.reset.lineIf ∧
      t.port = { input := [], overflow := false, flags := 0, enables := 0, select := 0, data := 0 } ∧
      t.station.cells = s.station.cells ∧ t.station.committed = s.station.committed ∧
      t.station.lockMark = s.station.lockMark ∧ t.station.lockInEffect = s.station.lockMark ∧
      Decoded s.station t.station.effective ∧ t.station.programming = none ∧
      (c = .terminalReset →
        t.terminalReset = true ∧ t.touch.timer = none ∧ t.sustain.supplyState = .low ∧ t.sustain.settle = none ∧
        t.engine = { s.engine with held := none, arbiter := .localCh }) ∧
      (c = .powerOnReset →
        let recover := match t.station.effective.pair with | .a => 150000 | .b => 170000 | .c => 190000
        t.terminalReset = false ∧ t.touch.timer = some 40000 ∧ (∀ y g, shadowAt t y g = 0) ∧
        (∀ n, glyphRows t.engine.glyphs n = List.replicate 16 0) ∧ t.engine.lockSet = 0 ∧
        (recover < s.sustain.supply → t.sustain.supplyState = .settling ∧ t.sustain.settle = some 80000) ∧
        (s.sustain.supply ≤ recover → t.sustain.supplyState = .low ∧ t.sustain.settle = none))

/-- The release of the terminal reset input: the scan timer starts, and the monitor, in LOW, compares the supply as it stands
(R75, R111). -/
def Obligations.ReleaseOfResetStartsTheTimers : Prop :=
  ∀ s : State, AtRest s → s.terminalReset = true → s.sustain.supplyState = .low → s.sustain.settle = none →
    let recover := match s.station.effective.pair with | .a => 150000 | .b => 170000 | .c => 190000
    ∃ t, exec .terminalResetRelease s = .next t ∧ t.terminalReset = false ∧ t.touch.timer = some 40000 ∧
      (recover < s.sustain.supply →
        t.sustain = { s.sustain with supplyState := .settling, settle := some 80000 }) ∧
      (s.sustain.supply ≤ recover → t.sustain = s.sustain) ∧
      OnlyChanges [.terminalReset, .scanTimer, .supply] s t

/-! ### The strike queue and the sustain -/

/-- ADDRESS_WINDOW: on a LIVE panel the head item leaves the queue and is applied, or the window passes unused (R62, R69); on a
PRIMING panel the bulk strike darkens the panel, which enters LIVE, and the scanner takes its first row (R71, R82, R91); in a
cycle whose divider count is not 0 no window opens (R81). The panel's cells are the model's image of it (log entry 14); that the
command changes nothing where no window opens is the model's choice (log entry 5). -/
def Obligations.WindowAppliesTheHead : Prop :=
  ∀ s : State, MemoryWf s → AtRest s →
    let drives (t : State) (item : Option StrikeItem) : Prop :=
      t.sustain.cycle = some { place := slotStart s.sustain.effectiveTiming, drive := item }
    (∀ item rest, s.sustain.divider = 0 → s.sustain.panelState = .live → s.strikes.items = item :: rest →
      ∃ t, exec .addressWindow s = .next t ∧ t.strikes = { s.strikes with items := rest } ∧ drives t (some item) ∧
        (∀ y g k, k < 16 →
          (panelAt t y g).getLsbD k =
            (match item with
            | .strike .write r h cells =>
              (panelAt s y g).getLsbD k || (decide (r = y ∧ h = g) && cells.getLsbD k)
            | .strike .erase r h cells =>
              (panelAt s y g).getLsbD k && !(decide (r = y ∧ h = g) && cells.getLsbD k)
            | .bulk => false)) ∧
        OnlyChanges [.items, .cycle, .panel, .flags] s t ∧ FlagsAfter [] s t) ∧
    (s.sustain.divider = 0 → s.sustain.panelState = .live → s.strikes.items = [] →
      ∃ t, exec .addressWindow s = .next t ∧ drives t none ∧ OnlyChanges [.cycle] s t) ∧
    (s.sustain.divider = 0 → s.sustain.panelState = .priming → PanelLegal s →
      ∃ t, exec .addressWindow s = .next t ∧ t.sustain.panelState = .live ∧ drives t (some .bulk) ∧
        (∀ y g, panelAt t y g = 0) ∧
        t.tracker.scanner =
          { s.tracker.scanner with
            active := true, current := some { row := s.tracker.scanner.sweep, kind := .blank, next := 0 } } ∧
        (∀ y, staleAt t y = if y = s.tracker.scanner.sweep then .coherent else .blank) ∧
        OnlyChanges [.panelState, .cycle, .panel, .stale, .scanner, .flags] s t ∧ FlagsAfter [.panel] s t) ∧
    (s.sustain.divider ≠ 0 ∨ s.sustain.panelState = .dark → exec .addressWindow s = .next s)

/-- A handed item joins the tail (R14, R64): an empty set is left out; the newest item of its kind, row and group is widened and
the count stays; otherwise it is appended. Either way the panel reaches what the item applied last would give, and a queue of
legal form keeps it. -/
def Obligations.HandedItemJoinsTheTail : Prop :=
  ∀ (kind : StrikeKind) (y : Coord) (g : Group) (cells held : Cells) (items : List StrikeItem)
    (lit : List (Nat × Cells)), TableWf 0 16384 lit →
    let next := handOver kind y g cells items
    let apply (q : List StrikeItem) : List (Nat × Cells) := q.foldl (fun m i => applyItem i m) lit
    (cells = 0 → next = items) ∧
    (cells ≠ 0 → items.getLast? = some (.strike kind y g held) →
      next = items.dropLast ++ [.strike kind y g (held ||| cells)]) ∧
    (cells ≠ 0 → (∀ h, items.getLast? ≠ some (.strike kind y g h)) → next = items ++ [.strike kind y g cells]) ∧
    (∀ key, sparseGet 0 (apply next) key = sparseGet 0 (apply (items ++ [.strike kind y g cells])) key) ∧
    (QueueLegal items → QueueLegal next)

/-- SUPPLY_DROOP and SUPPLY_RECOVER (R75, R76, R83), with the thresholds of pairs A, B and C in millivolts: below droop the monitor is LOW with the timer idle, from GOOD with the effects
of a loss on a panel that is not DARK; above recover a monitor in LOW enters SETTLING with the timer started; in every other case
only the level is new. That either command compares both thresholds is the model's choice (log entry 6). -/
def Obligations.SupplyMonitorChangesState : Prop :=
  ∀ (s : State) (v : Nat) (c : Instr), MemoryWf s → AtRest s → s.terminalReset = false →
    (c = .supplyDroop v ∨ c = .supplyRecover v) →
    let droop := match s.station.effective.pair with | .a => 140000 | .b => 160000 | .c => 180000
    let recover := match s.station.effective.pair with | .a => 150000 | .b => 170000 | .c => 190000
    let g := s.sustain
    (v < droop → g.supplyState = .settling →
      exec c s = .next (s.withSustain { g with supply := v, supplyState := .low, settle := none })) ∧
    (v < droop → g.supplyState = .good → g.panelState = .dark →
      exec c s = .next (s.withSustain { g with supply := v, supplyState := .low })) ∧
    (v < droop → g.supplyState = .good → g.panelState ≠ .dark →
      ∃ t, exec c s = .next t ∧ t.sustain.supply = v ∧ t.sustain.supplyState = .low ∧ t.sustain.settle = g.settle ∧
        Lost s t ∧ FlagsAfter [.panel] s t ∧
        OnlyChanges
          [.shadow, .held, .lineChan, .localChan, .items, .supply, .panelState, .cycle, .stale, .scanner, .panel, .flags]
          s t) ∧
    (recover < v → g.supplyState = .low →
      exec c s = .next (s.withSustain { g with supply := v, supplyState := .settling, settle := some 80000 })) ∧
    ((droop ≤ v ∧ v ≤ recover) ∨ (v < droop ∧ g.supplyState = .low) ∨ (recover < v ∧ g.supplyState ≠ .low) →
      exec c s = .next (s.withSustain { g with supply := v }))

/-- SETTLE_TIMER_EXPIRY and PANEL_ON: the monitor enters GOOD, or the enable is turned on; the sustain starts when the supply is
then GOOD, the enable on and the panel DARK (R76, R77, R78, R87). -/
def Obligations.SustainStarts : Prop :=
  ∀ (s : State) (a : BitVec 12), AtRest s →
    let starts (t : State) : Prop :=
      Started s t ∧ FlagsAfter [.panel] s t ∧
        OnlyChanges [.supply, .enable, .panelState, .effectiveTiming, .divider, .cycle, .panel, .flags] s t
    (s.sustain.settle.isSome = true →
      ∃ t, exec .settleTimerExpiry s = .next t ∧ t.sustain.supply = s.sustain.supply ∧ t.sustain.supplyState = .good ∧
        t.sustain.settle = none ∧ t.sustain.enable = s.sustain.enable ∧
        (s.sustain.enable = true ∧ s.sustain.panelState = .dark → starts t) ∧
        (s.sustain.enable = false ∨ s.sustain.panelState ≠ .dark → OnlyChanges [.supply] s t)) ∧
    (s.terminalReset = false →
      ∃ t, exec (.panelOn a) s = .next t ∧ t.sustain.enable = true ∧ SamePart s t .supply ∧
        (s.sustain.supplyState = .good ∧ s.sustain.panelState = .dark → starts t) ∧
        (s.sustain.supplyState ≠ .good ∨ s.sustain.panelState ≠ .dark → OnlyChanges [.enable] s t))

/-- CYCLE_START (R80, R83): with the enable off the sustain stops as a loss, pending timing and divider count as they were; otherwise
pending timing becomes effective, the divider count advances or returns to 0 from d - 1, and a cycle begins. -/
def Obligations.CycleStartStopsOrGoesOn : Prop :=
  ∀ s : State, MemoryWf s → AtRest s → s.sustain.panelState ≠ .dark →
    (s.sustain.enable = false →
      ∃ t, exec .cycleStart s = .next t ∧ Lost s t ∧ FlagsAfter [.panel] s t ∧
        OnlyChanges
          [.shadow, .held, .lineChan, .localChan, .items, .panelState, .cycle, .stale, .scanner, .panel, .flags] s t) ∧
    (s.sustain.enable = true →
      ∃ t, exec .cycleStart s = .next t ∧ t.sustain.effectiveTiming = s.sustain.pendingTiming ∧
        t.sustain.divider =
          (if s.sustain.divider + 1 < dividerValue s.station.effective.divider then s.sustain.divider + 1 else 0) ∧
        t.sustain.cycle = some { place := 0, drive := none } ∧
        OnlyChanges [.effectiveTiming, .divider, .cycle] s t)

/-- The derivation of a cycle (R84): the effective dead time, pulse width and address slot of a period of 40..160 and a requested
dead time of 1..16 quarters, and the bounds that always hold of them. The outputs through the cycle (R79, R70): X and Y sustain in
their quarters and never together; the strike signal of the item driven, in the third to sixth quarter of the slot, never during
a sustain pulse; the row, group and cell data of the item through the slot, and zero otherwise. With no cycle all are deasserted. -/
def Obligations.CycleIsDerived : Prop :=
  ∀ t : Timing, 40 ≤ t.period → t.period ≤ 160 → 1 ≤ t.dead → t.dead ≤ 16 →
    let d := effectiveDead t
    let w := pulseWidth t
    d = min t.dead ((t.period - 24) / 2) ∧ w = (t.period - 8 - 2 * d) / 2 ∧ slotLength t = t.period - 2 * w - 2 * d ∧
    1 ≤ d ∧ d ≤ 16 ∧ 8 ≤ w ∧ 2 * w + 2 * d + slotLength t = t.period ∧
    slotLength t = 8 + t.period % 2 ∧ slotStart t + slotLength t = t.period ∧
    ∀ s : State, s.sustain.effectiveTiming = t →
      let addressed (row group : Nat) (cells : Cells) : Prop :=
        rowSelect s = row ∧ groupSelect s = group ∧ cellData s = cells
      (∀ c, s.sustain.cycle = some c → c.place < t.period →
        let inSlot := 2 * w + 2 * d ≤ c.place
        let pulsed := 2 * w + 2 * d + 2 ≤ c.place ∧ c.place < 2 * w + 2 * d + 6
        (xSustain s = true ↔ c.place < w) ∧ (ySustain s = true ↔ w + d ≤ c.place ∧ c.place < 2 * w + d) ∧
        ¬(xSustain s = true ∧ ySustain s = true) ∧
        (writeStrike s = true ↔ pulsed ∧ ∃ y g cells, c.drive = some (.strike .write y g cells)) ∧
        (eraseStrike s = true ↔ pulsed ∧ ∃ y g cells, c.drive = some (.strike .erase y g cells)) ∧
        (bulkStrike s = true ↔ pulsed ∧ c.drive = some .bulk) ∧
        (writeStrike s = true ∨ eraseStrike s = true ∨ bulkStrike s = true → xSustain s = false ∧ ySustain s = false) ∧
        (∀ kind y g cells, inSlot → c.drive = some (.strike kind y g cells) → addressed y.val g.val cells) ∧
        (¬inSlot ∨ c.drive = none ∨ c.drive = some .bulk → addressed 0 0 0)) ∧
      (s.sustain.cycle = none →
        xSustain s = false ∧ ySustain s = false ∧ writeStrike s = false ∧ eraseStrike s = false ∧ bulkStrike s = false ∧
          addressed 0 0 0)

/-! ### Coherence -/

/-- RESTORE_STEP (R93, R94): the items of the current row's next group by its kind, then the next group, or the row's end with the
sweep row moved on and the next row taken or the scanner IDLE. -/
def Obligations.RestoreStepHandsOverItsGroup : Prop :=
  ∀ (s : State) (cur : Current), MemoryWf s → s.sustain.panelState = .live → restoreDue s = true →
    s.tracker.scanner.current = some cur →
    let lit := shadowAt s cur.row cur.next
    let sweep := coord (cur.row.val + 1)
    ∃ t, exec .restoreStep s = .next t ∧ t.strikes.turn = .scanner ∧
      (cur.kind = .blank → t.strikes.items = handOver .write cur.row cur.next lit s.strikes.items) ∧
      (cur.kind ≠ .blank →
        t.strikes.items =
          handOver .write cur.row cur.next lit (handOver .erase cur.row cur.next (~~~lit) s.strikes.items)) ∧
      (cur.next.val < 31 →
        t.tracker = { s.tracker with
          scanner := { s.tracker.scanner with current := some { cur with next := group (cur.next.val + 1) } } }) ∧
      (cur.next.val = 31 → t.tracker.scanner.sweep = sweep ∧
        (s.tracker.stale = [] → t.tracker.scanner.active = false ∧ t.tracker.scanner.current = none ∧
          t.tracker.stale = []) ∧
        (∀ row kind, rowToTake s.tracker.stale sweep.val = some (row, kind) →
          t.tracker.scanner.active = true ∧
          t.tracker.scanner.current = some { row := coord row, kind := kind, next := 0 } ∧
          ∀ y, staleAt t y = if y.val = row then .coherent else staleAt s y)) ∧
      OnlyChanges [.items, .turn, .stale, .scanner, .flags] s t ∧ FlagsAfter [] s t

/-- The row a take chooses (R92): the lowest stale row at or above the sweep row, else the lowest, else none. -/
def Obligations.TakeChoosesTheLowestRow : Prop :=
  ∀ (stale : List (Nat × StaleKind)) (sweep : Nat), TableWf .coherent 512 stale →
    (∀ row kind, rowToTake stale sweep = some (row, kind) →
      row < 512 ∧ sparseGet .coherent stale row = kind ∧ kind ≠ .coherent ∧
      (sweep ≤ row → ∀ r, sweep ≤ r → r < row → sparseGet .coherent stale r = .coherent) ∧
      (row < sweep → ∀ r, r < row ∨ sweep ≤ r → sparseGet .coherent stale r = .coherent)) ∧
    (rowToTake stale sweep = none → ∀ r, sparseGet .coherent stale r = .coherent)

/-- REPAINT at its grant (R96, R97): on a LIVE panel every COHERENT row but the current one becomes UNKNOWN and BLANK rows stay, the
current row's kind becomes UNKNOWN, and the scanner is ACTIVE, taking a row when it has none; on a panel not LIVE nothing changes. -/
def Obligations.RepaintMakesRowsUnknown : Prop :=
  ∀ (s : State) (ch : Channel), MemoryWf s → Granted ch s .repaint →
    let marked (y : Coord) : StaleKind := if staleAt s y = .coherent then .unknown else staleAt s y
    ∃ t, exec (.repaint ch) s = .next t ∧ t.chan ch = { s.chan ch with order := none } ∧ FlagsAfter [] s t ∧
      (∀ cur, s.sustain.panelState = .live → s.tracker.scanner.current = some cur → staleAt s cur.row = .coherent →
        t.tracker.scanner =
          { s.tracker.scanner with active := true, current := some { cur with kind := .unknown } } ∧
        (∀ y, staleAt t y = if y = cur.row then .coherent else marked y) ∧
        OnlyChanges [.arbiter, .stale, .scanner, chanPart ch, .flags] s t) ∧
      (s.sustain.panelState = .live → s.tracker.scanner.current = none →
        t.tracker.scanner =
          { s.tracker.scanner with
            active := true
            current :=
              some { row := s.tracker.scanner.sweep, kind := marked s.tracker.scanner.sweep, next := 0 } } ∧
        (∀ y, staleAt t y = if y = s.tracker.scanner.sweep then .coherent else marked y) ∧
        OnlyChanges [.arbiter, .stale, .scanner, chanPart ch, .flags] s t) ∧
      (s.sustain.panelState ≠ .live → OnlyChanges [.arbiter, chanPart ch, .flags] s t)

/-- The panel follows the shadow across every step of the machine (R89, R99, R100), with the companions that the argument rests on:
the stores' canonical form, what the panel state implies, and the current row's being COHERENT. The panel's
cells are the model's image of it (log entry 14). -/
def Obligations.PanelFollowsShadowThroughEveryStep : Prop :=
  ∀ s t : State, MemoryWf s → ProgramWf s → PanelLegal s → CurrentCoherent s → PanelFollowsShadow s →
    step s = .next t → PanelLegal t ∧ CurrentCoherent t ∧ PanelFollowsShadow t

/-- While settled holds the panel shows exactly the shadow image (R73, R99). -/
def Obligations.SettledPanelShowsTheShadow : Prop :=
  ∀ s : State, PanelLegal s → PanelFollowsShadow s → isSettled s = true → ∀ y g, panelAt s y g = shadowAt s y g

/-! ### Takeover and supervision -/

/-- TAKE and GIVE at their grants (R105, R106). -/
def Obligations.TakeAndGiveMoveTakeover : Prop :=
  ∀ s : State,
    (Granted .lineCh s (.supervise .take) →
      ∃ t, exec (.take .lineCh) s = .next t ∧ t.lineChan = { s.lineChan with order := none } ∧
        (s.supervision.takeover = true → OnlyChanges [.arbiter, .lineChan, .flags] s t ∧ FlagsAfter [] s t) ∧
        (s.supervision.takeover = false →
          t.supervision = { s.supervision with takeover := true, resumeAwaited := false } ∧
          t.localChan =
            { s.localChan with
              response := if s.localChan.response = .accept then .hold else s.localChan.response } ∧
          OnlyChanges [.arbiter, .lineChan, .localChan, .takeover, .flags] s t ∧ FlagsAfter [.takeover] s t)) ∧
    (Granted .lineCh s (.supervise .give) →
      ∃ t, exec (.give .lineCh) s = .next t ∧ t.lineChan = { s.lineChan with order := none } ∧
        (s.supervision.takeover = false → OnlyChanges [.arbiter, .lineChan, .flags] s t ∧ FlagsAfter [] s t) ∧
        (s.supervision.takeover = true →
          t.supervision.takeover = false ∧
          t.supervision.resumeAwaited = decide (s.localChan.response = .hold) ∧
          OnlyChanges [.arbiter, .lineChan, .takeover, .flags] s t ∧ FlagsAfter [.takeover] s t))

/-- AREA, LOCK, ROUTE and TIMING at their grants (R85, R109, R110). -/
def Obligations.SuperviseReplacesItsState : Prop :=
  ∀ s : State,
    (∀ x1 y1 x2 y2, Granted .lineCh s (.supervise (.area x1 y1 x2 y2)) →
      ∃ t, exec (.area .lineCh) s = .next t ∧ t.lineChan = { s.lineChan with order := none } ∧
        t.supervision.area.xLo.val = min x1.val x2.val ∧ t.supervision.area.yLo.val = min y1.val y2.val ∧
        t.supervision.area.xHi.val = max x1.val x2.val ∧ t.supervision.area.yHi.val = max y1.val y2.val ∧
        OnlyChanges [.arbiter, .lineChan, .area, .flags] s t ∧ FlagsAfter [] s t) ∧
    (∀ sets, Granted .lineCh s (.supervise (.lock sets)) →
      ∃ t, exec (.lock .lineCh) s = .next t ∧ t.lineChan = { s.lineChan with order := none } ∧
        t.engine.lockSet = sets ∧ OnlyChanges [.arbiter, .lineChan, .lockSet, .flags] s t ∧ FlagsAfter [] s t) ∧
    (∀ r, Granted .lineCh s (.supervise (.route r)) →
      ∃ t, exec (.route .lineCh) s = .next t ∧ t.lineChan = { s.lineChan with order := none } ∧
        t.supervision.route = r ∧ OnlyChanges [.arbiter, .lineChan, .route, .flags] s t ∧ FlagsAfter [] s t) ∧
    (∀ period dead : Word, Granted .lineCh s (.supervise (.timing period dead)) →
      ∃ t, exec (.timing .lineCh) s = .next t ∧ t.lineChan = { s.lineChan with order := none } ∧
        t.sustain.pendingTiming.period =
          (if period.toNat < 40 then 40 else if 160 < period.toNat then 160 else period.toNat) ∧
        t.sustain.pendingTiming.dead =
          (if dead.toNat < 1 then 1 else if 16 < dead.toNat then 16 else dead.toNat) ∧
        OnlyChanges [.arbiter, .lineChan, .pendingTiming, .flags] s t ∧ FlagsAfter [] s t)

/-- RESUME (R107): a channel awaiting it returns to ACCEPT and keeps its FIFO, order and context; any other is left as it is. A
TAKE granted at an event that comes together with it, RESUME first, finds nothing granted to the local channel, which is back in
HOLD under takeover (R108) with what it kept after its decoder has acted at once (R50): a frozen order as it stood, a MOVE carried
out, a DOT started. Said of a TAKE alone or behind a LOCK in one ORDERS frame with a free engine, and of a TAKE behind a held line
span that an address window lets render. The command directly behind the RESUME is the one that comes together with it (log entry
22, the model's choice of how the two are sent). -/
def Obligations.ResumeReturnsAWaitingChannel : Prop :=
  ∀ (s : State) (a : BitVec 12), s.terminalReset = false →
    (AtRest s → s.localChan.response = .hold → s.supervision.takeover = false → s.supervision.resumeAwaited = true →
      ∃ t, exec (.resume a) s = .next t ∧ t.localChan = { s.localChan with response := .accept } ∧
        t.supervision = { s.supervision with resumeAwaited := false } ∧ resumeOpen t = true ∧
        OnlyChanges [.localChan, .takeover, .flags] s t ∧ FlagsAfter [] s t) ∧
    (AtRest s → s.localChan.response ≠ .hold ∨ s.supervision.takeover = true ∨ s.supervision.resumeAwaited = false →
      exec (.resume a) s = .next s) ∧
    (resumeOpen s = true → s.localChan.response = .accept → s.supervision.takeover = false →
      s.lineChan.response = .accept →
      let l := s.localChan
      let point (x y : Word) : Point := { x := coordOf x, y := coordOf y }
      ∀ (kept : Chan) (head : Word), headKind head = some .take →
        ((l.order.isSome = true ∧ droppedRowReady l = false ∧ kept = l) ∨
          (∃ move x y, ReachesOrder .localCh s .move move [x, y] [] ∧
            kept = { l with fifo := [], context := { l.context with position := point x y, penFresh := true } }) ∨
          (∃ dot x y, ReachesOrder .localCh s .dot dot [x, y] [] ∧
            kept = { l with fifo := [], order := some (.dot (point x y) false) }) ∨
          (l.order = none ∧ l.fifo = [] ∧ kept = l)) →
        let held (t : State) : Prop :=
          t.localChan = { kept with response := .hold } ∧ t.supervision.takeover = true ∧
            t.supervision.resumeAwaited = false ∧ t.engine.held = none ∧ t.engine.arbiter = .lineCh ∧
            FlagsAfter [.takeover] s t
        (∀ (r : Reception) (check : Byte) (lead : List Word), s.engine.held = none → sendingReply s.lineIf = false →
          s.lineIf.receiver = .receiving → s.lineIf.assembler = .check r → r.kind = .orders → r.sum + check = 0 →
          s.lineIf.staging = lead ++ [head] → s.lineChan.order = none → s.lineChan.fifo = [] →
          (lead = [] →
            ∃ t, exec (.orders check) s = .next t ∧ held t ∧
              OnlyChanges [.localChan, .takeover, .receiver, .arbiter, .flags] s t) ∧
          (∀ lock sets, lead = [lock, sets] → headKind lock = some .lock →
            ∃ t, exec (.orders check) s = .next t ∧ held t ∧ t.engine.lockSet = sets.extractLsb' 0 4 ∧
              OnlyChanges [.localChan, .takeover, .receiver, .arbiter, .lockSet, .flags] s t)) ∧
        (∀ (h : Held) (item : StrikeItem) (rest : List StrikeItem), MemoryWf s → s.engine.held = some h →
          h.channel = .lineCh → s.sustain.panelState = .live → s.sustain.divider = 0 → s.strikes.items = item :: rest →
          rest.length ≤ 62 → scannerClaims s = false → (spanRendered s.lineChan).order = none →
          s.lineChan.fifo = [head] →
          ∃ t, exec .addressWindow s = .next t ∧ held t ∧ ShadowDrawn s t h ∧
            t.lineChan = { spanRendered s.lineChan with fifo := [] } ∧
            OnlyChanges
              [.shadow, .held, .arbiter, .lineChan, .localChan, .takeover, .items, .turn, .cycle, .panel, .flags] s t))

/-- The local state, takeover and resume-awaited stand in the relation of R104's table, the line channel is ACCEPT or HALTED, and a
HALTED channel holds no word and no order (R54, R55), across every step. -/
def Obligations.TakeoverTableIsKept : Prop :=
  ∀ s t : State, ResponsesLegal s → step s = .next t → ResponsesLegal t

/-! ### The touch panel -/

/-- The scan result of a sample (R112): NONE, AMBIGUOUS, or the cell of the middle beams of two runs, the lower of the two middle
beams of an even run. -/
def Obligations.ScanResultNamesTheMiddle : Prop :=
  ∀ h v : BitVec 16,
    (h = 0 → v = 0 → scanResult h v = .nothing) ∧
    (h = 0 → v ≠ 0 → scanResult h v = .ambiguous) ∧
    (h ≠ 0 → v = 0 → scanResult h v = .ambiguous) ∧
    (h ≠ 0 → (∀ first len, ¬IsRun h first len) → scanResult h v = .ambiguous) ∧
    (v ≠ 0 → (∀ first len, ¬IsRun v first len) → scanResult h v = .ambiguous) ∧
    (∀ hf hl vf vl, IsRun h hf hl → IsRun v vf vl →
      scanResult h v = .cell { tx := BitVec.ofNat 4 (vf + (vl - 1) / 2), ty := BitVec.ofNat 4 (hf + (hl - 1) / 2) })

/-- The touch filter with count N (R114, R115): N equal CELL results after IDLE emit one press at the last of them, N results NONE
release a held touch without one, and N equal results of another cell move it with one, AMBIGUOUS ones between them passed over. -/
def Obligations.FilterBelievesNScans : Prop :=
  ∀ (n : Nat) (c d : TouchCell), 2 ≤ n → c ≠ d →
    let after (start : TouchRecord) (results : List ScanResult) : TouchRecord × List TouchCell :=
      results.foldl (fun out r => ((filterStep n out.1 r).1, out.2 ++ (filterStep n out.1 r).2.toList)) (start, [])
    after .idle (List.replicate n (.cell c)) = (.held c none 0, [c]) ∧
    (∀ k, 1 ≤ k → k < n → after .idle (List.replicate k (.cell c)) = (.candidate c k, [])) ∧
    (∀ k r, 1 ≤ k → k < n → r ≠ .cell c → (filterStep n (.candidate c k) r).2 = none ∧
      ∀ j, (filterStep n (.candidate c k) r).1 ≠ .candidate c j) ∧
    after (.held c none 0) (List.replicate n .nothing) = (.idle, []) ∧
    (∀ k, k < n → after (.held c none 0) (List.replicate k .nothing) = (.held c none k, [])) ∧
    after (.held c none 0) (List.replicate n (.cell d)) = (.held d none 0, [d]) ∧
    (∀ cand g, after (.held c cand g) [.ambiguous] = (.held c cand g, [])) ∧
    (∀ cand g, after (.held c cand g) [.cell c] = (.held c none 0, []))

/-- SCAN_EVENT (R111, R116, R117): the sample's result reaches the record, the timer restarts, and a press goes by the touch route to
each queue named, joining it or, when it is full, setting its overflow flag; INPUT is raised when it joins an empty one. Together
with an event that frees places in a full queue on which a PASS waits, that event first, the press joins before the PASS: behind a
read of INPUT it takes the place, and the PASS waits on (R59, R117), or the PASS is granted first and takes it. That the scan event
directly behind comes together with it is the model's choice (log entry 10). -/
def Obligations.ScanEventSendsPresses : Prop :=
  ∀ (s : State) (h v : BitVec 16), s.terminalReset = false →
    let out := filterStep (filterValue s.station.effective.filter) s.touch.record (scanResult h v)
    let toUpstream := s.supervision.route = .toLine ∨ s.supervision.route = .toBoth
    let toInput := s.supervision.route = .toLocal ∨ s.supervision.route = .toBoth
    (AtRest s ∨ placesOpen s = true →
      ∃ t, exec (.scanEvent h v) s = .next t ∧
        t.touch = { horizontal := h, vertical := v, timer := some 40000, record := out.1 } ∧
        OnlyChanges [.beams, .scanTimer, .touchRecord, .upstream, .input, .flags] s t ∧
        (out.2 = none → OnlyChanges [.beams, .scanTimer, .touchRecord, .flags] s t ∧ FlagsAfter [] s t) ∧
        (out.2 = none → AtRest s → OnlyChanges [.beams, .scanTimer, .touchRecord] s t) ∧
        (∀ c, out.2 = some c →
          (toUpstream → s.lineIf.upstream.length < 16 →
            t.lineIf.upstream = s.lineIf.upstream ++ [.touch c] ∧ t.lineIf.overflow = s.lineIf.overflow) ∧
          (toUpstream → 16 ≤ s.lineIf.upstream.length →
            t.lineIf.upstream = s.lineIf.upstream ∧ t.lineIf.overflow = true) ∧
          (¬toUpstream → SamePart s t .upstream) ∧
          (toInput → s.port.input.length < 16 →
            t.port.input = s.port.input ++ [.touch c] ∧ t.port.overflow = s.port.overflow ∧
            FlagsAfter (if s.port.input = [] then [.input] else []) s t) ∧
          (toInput → 16 ≤ s.port.input.length →
            t.port.input = s.port.input ∧ t.port.overflow = true ∧ FlagsAfter [] s t ∧
            (AtRest s → SamePart s t .flags)) ∧
          (¬toInput → SamePart s t .input ∧ FlagsAfter [] s t ∧ (AtRest s → SamePart s t .flags)))) ∧
    (∀ c p, AtRest s → out.2 = some c →
      (toInput → s.port.input.length = 16 → s.engine.held = none → s.lineChan.response = .accept →
        s.lineChan.order = some (.pass p) →
        ∃ t u w, exec .input s = .next t ∧
          exec (.scanEvent h v) t = .next u ∧ u.port.input = s.port.input.tail ++ [.touch c] ∧
            u.port.overflow = s.port.overflow ∧ u.lineChan = s.lineChan ∧ presents u .lineCh = false ∧
          exec (.pass .lineCh) t = .next w ∧ w.port.input = s.port.input.tail ++ [.pass p] ∧
            w.lineChan = { s.lineChan with order := none }) ∧
      (s.localChan.response = .accept → s.localChan.order = some (.pass p) → s.lineIf.upstream.length = 16 →
        (∀ left, toUpstream → s.lineIf.reply = .turnaround left →
          ∃ t u, exec .turnaroundGapExpiry s = .next t ∧ exec (.scanEvent h v) t = .next u ∧
            u.lineIf.upstream = s.lineIf.upstream.drop 4 ++ [.touch c] ∧ u.lineIf.overflow = false ∧
            u.localChan = s.localChan) ∧
        (∀ r check, s.station.effective.route = .toLine ∨ s.station.effective.route = .toBoth →
          sendingReply s.lineIf = false → s.lineIf.receiver = .receiving → s.lineIf.assembler = .check r →
          r.kind = .clear → r.sum + check = 0 →
          ∃ t u, exec (.clear check) s = .next t ∧ exec (.scanEvent h v) t = .next u ∧
            u.lineIf.upstream = [.touch c] ∧ u.lineIf.overflow = s.lineIf.overflow ∧ u.localChan = s.localChan)))

/-! ### The cluster line -/

/-- CHARACTER_START and LINE_GOES_HIGH (R119, R126): a low line that outlasts the rejection width begins a character, which cancels a
turnaround, and a shorter pulse is rejected; a receiver waiting after a low stop bit is idle again when the line goes high.
That a pulse of exactly the rejection width begins a character is the model's reading (log entry 8). -/
def Obligations.ReceiverFindsCharacters : Prop :=
  ∀ (s : State) (low : Nat), AtRest s →
    let width := match s.station.effective.noise with | .sixteenth => 1 | .quarter => 4
    (s.terminalReset = false → sendingReply s.lineIf = false → s.lineIf.receiver = .idle →
      (width ≤ low →
        ∃ t, exec (.characterStart low) s = .next t ∧ t.lineIf.receiver = .receiving ∧ t.lineIf.reply = .idle ∧
          t.lineIf.assembler = s.lineIf.assembler ∧ t.lineIf.staging = s.lineIf.staging ∧
          OnlyChanges [.receiver, .reply] s t) ∧
      (low < width → exec (.characterStart low) s = .next s)) ∧
    (s.lineIf.receiver = .waitHigh →
      exec .lineGoesHigh s = .next (s.withLineIf { s.lineIf with receiver := .idle })) ∧
    (s.lineIf.receiver ≠ .waitHigh → exec .lineGoesHigh s = .next s)

/-- CHARACTER_ARRIVAL (R119 to R122, R124, R143): the twelve sampled bit times are the start bit, the data bits from the least
significant, mark, parity and stop; and the assembler's table for every character but a good check character. After a low stop
bit the receiver waits for the line to go high. -/
def Obligations.AssemblerTakesCharacters : Prop :=
  ∀ (s : State) (samples : BitVec 12), AtRest s → s.terminalReset = false → sendingReply s.lineIf = false →
    s.lineIf.receiver = .receiving →
    let c := receivedChar samples
    let l := { s.lineIf with receiver := if c.stop = true then .idle else .waitHigh }
    let run (l' : LineInterface) : Prop := exec (.characterArrival samples) s = .next (s.withLineIf l')
    let discarded : LineInterface :=
      { l with assembler := .hunt, staging := [], discards := if l.discards < 15 then l.discards + 1 else 15 }
    let bad := (onesOf c.data + c.mark.toNat + c.parity.toNat) % 2 = 0 ∨ c.stop = false
    let kind := frameKindOf c.data
    let station := c.data.toNat / 8
    let taken := kind.isSome = true ∧
      (if station = 31 then kind ≠ some .poll else ∃ n, s.station.effective.station = some n ∧ n.val = station)
    (∀ j, j < 8 → c.data.getLsbD j = samples.getLsbD (j + 1)) ∧ c.mark = samples.getLsbD 9 ∧
    c.parity = samples.getLsbD 10 ∧ c.stop = samples.getLsbD 11 ∧
    (l.assembler = .hunt → bad ∨ c.mark = false → run l) ∧
    (l.assembler ≠ .hunt → l.discards ≤ 15 → bad → run discarded) ∧
    (¬bad → c.mark = true → ¬taken → run { l with assembler := .hunt, staging := [] }) ∧
    (∀ k, ¬bad → c.mark = true → taken → kind = some k →
      run { l with
        staging := []
        assembler := .length
          { station := stationOf c.data, kind := k, length := none, bytesLeft := 0, sum := c.data, high := none } }) ∧
    (∀ r, ¬bad → c.mark = false → l.assembler = .length r →
      let n := c.data.toNat
      let next : Reception := { r with length := some n, bytesLeft := 2 * n, sum := r.sum + c.data }
      (l.discards ≤ 15 → 32 < n ∨ (r.kind ≠ .orders ∧ n ≠ 0) → run discarded) ∧
      (n = 0 → run { l with assembler := .check next }) ∧
      (r.kind = .orders → 1 ≤ n → n ≤ 32 → run { l with assembler := .data next })) ∧
    (∀ r, ¬bad → c.mark = false → l.assembler = .data r → 1 ≤ r.bytesLeft →
      let next : Reception := { r with bytesLeft := r.bytesLeft - 1, sum := r.sum + c.data }
      let place (q : Reception) : Assembler := if r.bytesLeft = 1 then .check q else .data q
      (r.high = none → run { l with assembler := place { next with high := some c.data } }) ∧
      (∀ hi, r.high = some hi →
        run { l with
          assembler := place { next with high := none }, staging := l.staging ++ [hi ++ c.data] }))

/-- ORDERS, CLEAR and POLL (R123 to R126, R57): the outcome at a frame's check character, decided by the first test that applies. -/
def Obligations.FrameEndsAtItsCheckCharacter : Prop :=
  ∀ (s : State) (r : Reception) (b : Byte) (cmd : Instr), AtRest s → s.terminalReset = false →
    sendingReply s.lineIf = false → s.lineIf.receiver = .receiving → s.lineIf.assembler = .check r →
    cmd = (match r.kind with | .orders => .orders b | .clear => .clear b | .poll => .poll b) →
    let discard (room : Bool) : State := s.withLineIf
      { s.lineIf with
        receiver := .idle, assembler := .hunt, staging := [], discards := min 15 (s.lineIf.discards + 1)
        roomFlag := s.lineIf.roomFlag || room }
    (r.sum + b ≠ 0 → exec cmd s = .next (discard false)) ∧
    (r.sum + b = 0 → r.kind = .orders → s.lineChan.response = .halted → exec cmd s = .next (discard false)) ∧
    (r.sum + b = 0 → r.kind = .orders → s.lineChan.response ≠ .halted →
      fifoFree s .lineCh < s.lineIf.staging.length → exec cmd s = .next (discard true)) ∧
    (r.sum + b = 0 → r.kind = .orders → s.lineChan.response ≠ .halted →
      s.lineIf.staging.length ≤ fifoFree s .lineCh →
      ∃ t, exec cmd s = .next t ∧
        t.lineChan = { s.lineChan with fifo := s.lineChan.fifo ++ s.lineIf.staging } ∧
        t.lineIf = { s.lineIf with receiver := .idle, assembler := .hunt, staging := [] } ∧
        OnlyChanges [.lineChan, .receiver, .flags] s t ∧ FlagsAfter [] s t) ∧
    (r.sum + b = 0 → r.kind = .clear →
      ∃ t, exec cmd s = .next t ∧ t.lineChan = Chan.initial ∧ t.supervision.area = Rect.whole ∧
        t.supervision.route = s.station.effective.route ∧ t.supervision.takeover = false ∧
        t.supervision.resumeAwaited =
          (if s.supervision.takeover = true then decide (s.localChan.response = .hold)
            else s.supervision.resumeAwaited) ∧
        t.lineIf = { s.lineIf with receiver := .idle, assembler := .hunt, staging := [], upstream := [] } ∧
        t.engine = { s.engine with held := s.engine.held.filter fun h => h.channel != .lineCh } ∧
        OnlyChanges [.lineChan, .held, .area, .route, .takeover, .receiver, .upstream, .flags] s t ∧
        FlagsAfter (if s.supervision.takeover = true then [.takeover] else []) s t) ∧
    (r.sum + b = 0 → r.kind = .poll →
      exec cmd s = .next (s.withLineIf
        { s.lineIf with
          receiver := .idle, assembler := .hunt, staging := []
          reply := .turnaround (2 * characterQuarters s.station.effective.rate) }))

/-- TURNAROUND_GAP_EXPIRY and REPLY_SENT (R126, R127, R143): the reply's bytes as numbers, by the layout of its address, its length,
its three status words and its records, and a sum of 0 modulo 256; its records leave the upstream queue and the counts and flags
are cleared; at its end the receiver is idle in HUNT. The address byte of a part with no station, which takes no POLL, is the
model's choice (log entry 15). -/
def Obligations.ReplyIsComposedAndSent : Prop :=
  ∀ s : State, AtRest s →
    let count := min 4 s.lineIf.upstream.length
    (∀ left, s.lineIf.reply = .turnaround left →
      ∃ (t : State) (bytes : List Byte), exec .turnaroundGapExpiry s = .next t ∧
        t.lineIf.reply = .sending bytes (bytes.length * characterQuarters s.station.effective.rate) ∧
        bytes.length = 9 + 2 * count ∧ bytes.foldl (· + ·) 0 = 0 ∧
        (let byte (i : Nat) : Nat := (bytes.getD i 0).toNat
         let word (i : Nat) : Nat := 256 * byte i + byte (i + 1)
         (∀ n, s.station.effective.station = some n → byte 0 = 8 * n.val + 4) ∧
         (s.station.effective.station = none → byte 0 = 252) ∧ byte 1 = 3 + count ∧
         word 2 =
           (decide (s.lineChan.response = .halted)).toNat + 2 * causeCode s.lineChan.cause +
             8 * panelCode s.sustain.panelState + 32 * (isSettled s).toNat + 64 * s.supervision.takeover.toNat +
             128 * s.supervision.resumeAwaited.toNat + 256 * (chanIdle s.lineChan).toNat ∧
         word 4 = 256 - s.lineChan.fifo.length ∧
         (s.lineIf.discards ≤ 15 →
           word 6 = s.lineIf.discards + 16 * s.lineIf.roomFlag.toNat + 32 * s.lineIf.overflow.toNat + 64 * count) ∧
         ∀ j r, j < count → s.lineIf.upstream[j]? = some r →
           word (8 + 2 * j) =
             (match r with
             | .touch c => 4096 + 16 * c.tx.toNat + c.ty.toNat
             | .pass p => 8192 + p.toNat)) ∧
        t.lineIf.upstream = s.lineIf.upstream.drop count ∧ t.lineIf.discards = 0 ∧ t.lineIf.roomFlag = false ∧
        t.lineIf.overflow = false ∧ driverEnable t = true ∧
        OnlyChanges [.receiver, .reply, .upstream, .counts, .flags] s t ∧ FlagsAfter [] s t) ∧
    (∀ bytes left, s.lineIf.reply = .sending bytes left →
      exec .replySent s =
        .next (s.withLineIf { s.lineIf with reply := .idle, receiver := .idle, assembler := .hunt, staging := [] }))

/-! ### The local word port and the station record -/

/-- INPUT and STATUS, and what a read of each location returns (R129, R130, R131, R136, R142, R144): the oldest record leaves and is
returned, or NONE is; the status word is returned as it stands and the overflow flag then cleared; SPACE, EVENTS and RECORD are
returned by their layouts, and 0 at locations 0, 6 and 7; while the terminal reset input is asserted every read returns 0. That
the returned word is kept, for INPUT and STATUS, is the model's choice (log entry 16). -/
def Obligations.PortReadsReturnTheirWords : Prop :=
  ∀ s : State,
    let e := s.station.effective
    let f := s.port.select.toNat
    let parts : List Nat :=
      [match e.station with | some n => n.val | none => 31, rateCode e.rate,
        match e.noise with | .sixteenth => 0 | .quarter => 1, e.period - 40, e.dead - 1,
        match e.divider with | .one => 0 | .two => 1 | .four => 2, match e.pair with | .a => 0 | .b => 1 | .c => 2,
        match e.filter with | .two => 0 | .four => 1 | .eight => 2, routeCode e.route]
    (s.terminalReset = true → ∀ l, portRead s l = 0) ∧
    (s.terminalReset = false →
      portRead s 0 = 0 ∧ portRead s 6 = 0 ∧ portRead s 7 = 0 ∧
      (portRead s 3).toNat = 64 - s.localChan.fifo.length ∧
      (portRead s 4).toNat < 256 ∧
      (∀ k flag, [EventFlag.space, .refused, .drained, .input, .takeover, .panel, .halt, .settled][k]? = some flag →
        (portRead s 4).getLsbD k = flagSet flag s) ∧
      (e.period ≤ 160 → e.dead ≤ 16 → ∀ part, parts[f]? = some part →
        (portRead s 5).toNat =
          (sparseGet 0 s.station.cells f).toNat + 256 * (sparseGet false s.station.committed f).toNat + 512 * part) ∧
      (f = 9 → (portRead s 5).toNat = s.station.lockMark.toNat + 512 * s.station.lockInEffect.toNat) ∧
      (10 ≤ f → portRead s 5 = 0)) ∧
    (AtRest s → s.terminalReset = true → ∀ c, c = .input ∨ c = .status →
      exec c s = .next (s.withPort { s.port with data := 0 })) ∧
    (AtRest s → s.terminalReset = false →
      (s.port.input = [] → exec .input s = .next (s.withPort { s.port with data := 0 })) ∧
      (∀ record rest, s.port.input = record :: rest →
        ∃ t, exec .input s = .next t ∧ t.port.input = rest ∧ t.port.overflow = s.port.overflow ∧
          t.port.data = portRead s 1 ∧
          t.port.data.toNat =
            (match record with
            | .touch c => 4096 + 16 * c.tx.toNat + c.ty.toNat
            | .pass p => 8192 + p.toNat) ∧
          OnlyChanges [.input, .data, .flags] s t ∧ FlagsAfter [] s t) ∧
      (s.port.input.length ≤ 16 →
        ∃ t, exec .status s = .next t ∧ t.port.overflow = false ∧ t.port.input = s.port.input ∧
          OnlyChanges [.input, .data] s t ∧ t.port.data = portRead s 2 ∧
          t.port.data.toNat =
            responseCode s.localChan.response + 4 * causeCode s.localChan.cause + 16 * s.supervision.takeover.toNat +
              32 * s.supervision.resumeAwaited.toNat + 64 * panelCode s.sustain.panelState + 256 * (isSettled s).toNat +
              512 * s.port.input.length + 16384 * s.port.overflow.toNat +
              32768 * s.station.programming.isSome.toNat))

/-- The control words that replace one register, and the writes that are ignored (R77, R129, R132, R133, R134, R136); and the attention
output (R133). That an IGNORED_WRITE whose operands R129 and R134 do not ignore, which spell another row, changes nothing is the
model's choice (log entry 17). -/
def Obligations.ControlWordsReplaceTheirRegister : Prop :=
  ∀ (s : State) (a : BitVec 12), AtRest s → s.terminalReset = false →
    exec (.eventAck a) s = .next (s.withPort { s.port with flags := s.port.flags &&& ~~~(a.extractLsb' 0 8) }) ∧
    exec (.eventEnable a) s = .next (s.withPort { s.port with enables := a.extractLsb' 0 8 }) ∧
    exec (.recordSelect a) s = .next (s.withPort { s.port with select := a.extractLsb' 8 4 }) ∧
    exec (.panelOff a) s = .next (s.withSustain { s.sustain with enable := false }) ∧
    (∀ location word, exec (.ignoredWrite location word) s = .next s) ∧
    (attention s = true ↔ ∃ f, flagSet f s = true ∧ s.port.enables.getLsbD (flagBit f) = true)

/-- RECORD_WRITE, RECORD_COMMIT, RECORD_LOCK and PROGRAMMING_OPERATION_END (R137, R138): a request starts an operation of 2 ms unless one
runs, lock-in-effect is set, or its field is committed or not one of 0..8; at its end it writes the record. -/
def Obligations.RecordIsProgrammed : Prop :=
  ∀ (s : State) (a : BitVec 12), MemoryWf s → ProgramWf s → AtRest s → s.terminalReset = false →
    let field : BitVec 4 := a.extractLsb' 8 4
    let fieldFree := field.toNat ≤ 8 ∧ sparseGet false s.station.committed field.toNat = false
    let starts (c : Instr) (operation : Program) : Prop :=
      exec c s =
        .next (s.withStation { s.station with programming := some { operation := operation, left := 8000 } })
    let write : Program := .write field (a.extractLsb' 0 8)
    (s.station.programming = none → s.station.lockInEffect = false →
      starts (.recordLock a) .lock ∧
      (fieldFree → starts (.recordWrite a) write ∧ starts (.recordCommit a) (.commit field)) ∧
      (¬fieldFree → exec (.recordWrite a) s = .next s ∧ exec (.recordCommit a) s = .next s)) ∧
    (s.station.programming.isSome = true ∨ s.station.lockInEffect = true →
      exec (.recordWrite a) s = .next s ∧ exec (.recordCommit a) s = .next s ∧ exec (.recordLock a) s = .next s) ∧
    (∀ p, s.station.programming = some p →
      ∃ t, exec .programmingOperationEnd s = .next t ∧ t.station.programming = none ∧
        (∀ f, sparseGet 0 t.station.cells f =
          (match p.operation with
          | .write g value => if f = g.toNat then sparseGet 0 s.station.cells f ||| value else sparseGet 0 s.station.cells f
          | _ => sparseGet 0 s.station.cells f)) ∧
        (∀ f, sparseGet false t.station.committed f =
          (sparseGet false s.station.committed f ||
            (match p.operation with | .commit g => decide (f = g.toNat) | _ => false))) ∧
        t.station.lockMark = (s.station.lockMark || decide (p.operation = .lock)) ∧
        OnlyChanges [.cells, .programming] s t)

/-- No step of the machine, a reset included, takes a bit of the station record from 1 to 0: cell bits, committed marks and the lock mark
(R135, R138). -/
def Obligations.RecordBitsOnlyRise : Prop :=
  ∀ s t : State, MemoryWf s → step s = .next t →
    (∀ f k, (sparseGet 0 s.station.cells f).getLsbD k = true → (sparseGet 0 t.station.cells f).getLsbD k = true) ∧
    (∀ f, sparseGet false s.station.committed f = true → sparseGet false t.station.committed f = true) ∧
    (s.station.lockMark = true → t.station.lockMark = true)

/-! ### Invariants -/

/-- Every addressed store keeps its canonical form across every step, and a running operation a programmable field. The form is the
model's own; the fields are those of R137. -/
def Obligations.MemoryFormIsKept : Prop :=
  ∀ s t : State, MemoryWf s → ProgramWf s → step s = .next t → MemoryWf t ∧ ProgramWf t

/-- The capacities of section 0.4 hold across every step (R48, R63, R117, R122, R124, R128), and so do the form of the strike queue (R62,
R64, R67), the ranges of timing and divider count (R81, R84, R85) and of the touch record (R113). -/
def Obligations.CapacitiesAndRangesAreKept : Prop :=
  ∀ s t : State, step s = .next t →
    (WithinCapacities s → WithinCapacities t) ∧
    (QueueLegal s.strikes.items → QueueLegal t.strikes.items) ∧
    (TimingLegal s → TimingLegal t) ∧
    (TouchLegal (filterCount s) s.touch.record → TouchLegal (filterCount t) t.touch.record)

/-- The machine after reset meets every invariant that the other statements say is kept. -/
def Obligations.ResetMeetsTheInvariants : Prop :=
  MemoryWf State.reset ∧ ProgramWf State.reset ∧ WithinCapacities State.reset ∧ ResponsesLegal State.reset ∧
    PanelLegal State.reset ∧ CurrentCoherent State.reset ∧ QueueLegal State.reset.strikes.items ∧
    TimingLegal State.reset ∧ TouchLegal (filterCount State.reset) State.reset.touch.record ∧
    PanelFollowsShadow State.reset ∧ AtRest State.reset
end

