-- ==== Sys2Proof/Laws/Cells.lean ====
section
/-! SUPPORT. Sets of cells read cell by cell: columns, rectangles, clipping and combine. -/

namespace Sys2Proof.Machine

theorem cellsBelow_getLsbD (p : Nat → Bool) : ∀ n k, n ≤ 16 → (cellsBelow p n).getLsbD k = (decide (k < n) && p k)
  | 0, k, _ => by simp [cellsBelow]
  | n + 1, k, h => by
    simp only [cellsBelow, BitVec.getLsbD_or, cellsBelow_getLsbD p n k (by omega)]
    by_cases hk : k = n
    · subst hk
      have before : decide (k < k) = false := decide_eq_false (by omega)
      have within : decide (k < k + 1) = true := decide_eq_true (by omega)
      rw [before, within]
      cases hp : p k
      · rw [if_neg (by simp)]; simp
      · rw [if_pos rfl, BitVec.getLsbD_twoPow]; simp; omega
    · have step : decide (k < n + 1) = decide (k < n) := decide_eq_decide.2 (by omega)
      have other : (if p n then BitVec.twoPow 16 n else (0 : Cells)).getLsbD k = false := by
        split
        · rw [BitVec.getLsbD_twoPow]
          simp [Ne.symm hk]
        · simp
      rw [step, other, Bool.or_false]

/-- The set of the cells with a property holds exactly those. -/
theorem cellsOf_getLsbD (p : Nat → Bool) (k : Nat) (h : k < 16) : (cellsOf p).getLsbD k = p k := by
  rw [cellsOf, cellsBelow_getLsbD p 16 k (by omega)]
  simp only [h, decide_true, Bool.true_and]

/-- The cells of a group within columns `lo..hi` (R25). -/
theorem columnCells_getLsbD (g lo hi k : Nat) (h : k < 16) :
    (columnCells g lo hi).getLsbD k = (decide (lo ≤ 16 * g + k) && decide (16 * g + k ≤ hi)) :=
  cellsOf_getLsbD _ k h

/-- The cells of a row-group inside a rectangle (R10). -/
theorem rectCells_getLsbD (r : Rect) (y : Coord) (g : Group) (k : Nat) (h : k < 16) :
    (rectCells r y g).getLsbD k = inRect r (16 * g.val + k) y.val := by
  unfold rectCells inRect
  by_cases hy : r.yLo ≤ y ∧ y ≤ r.yHi
  · rw [if_pos hy, columnCells_getLsbD _ _ _ _ h, decide_eq_true (Fin.le_def.1 hy.1), decide_eq_true (Fin.le_def.1 hy.2),
      Bool.and_true, Bool.and_true]
  · rw [if_neg hy]
    have out : (decide (r.yLo.val ≤ y.val) && decide (y.val ≤ r.yHi.val)) = false := by
      rw [← Bool.decide_and]
      exact decide_eq_false fun both => hy ⟨Fin.le_def.2 both.1, Fin.le_def.2 both.2⟩
    rw [Bool.and_assoc, Bool.and_assoc, out, Bool.and_false, Bool.and_false]
    exact BitVec.getLsbD_zero

/-- The clipped box holds the cells of the box that its channel may draw (R10). -/
theorem clippedBox_getLsbD (s : State) (ch : Channel) (p : Span) (k : Nat) (h : k < 16) :
    (clippedBox s ch p).getLsbD k = (p.box.getLsbD k && mayDraw s ch (16 * p.group.val + k) p.row.val) := by
  cases ch with
  | lineCh => simp only [clippedBox, mayDraw, BitVec.getLsbD_and, rectCells_getLsbD _ _ _ _ h]; simp
  | localCh =>
    simp only [clippedBox, mayDraw, BitVec.getLsbD_and, rectCells_getLsbD _ _ _ _ h, Bool.and_assoc]
    rfl

/-- Combine cell by cell (R11). -/
theorem combine_getLsbD (mode : Mode) (old box on : Cells) (k : Nat) (h : k < 16) (sub : on.getLsbD k = true → box.getLsbD k = true) :
    (combine mode old box on).getLsbD k = drawnCell mode (old.getLsbD k) (box.getLsbD k) (on.getLsbD k) := by
  cases mode <;> cases ho : old.getLsbD k <;> cases hb : box.getLsbD k <;> cases hn : on.getLsbD k <;>
    simp_all [combine, drawnCell]

end Sys2Proof.Machine
end

