-- ==== Sys2Proof/Laws/Sparse.lean ====
section
/-! SUPPORT. The laws of sparse tables: what a read gives after a write, and that every write keeps the canonical form. -/

namespace Sys2Proof.Machine

/-- A key below every listed key reads as the default. -/
theorem sparseGet_below {α : Type} (d : α) (m : List (Nat × α)) (a : Nat) (h : ∀ p ∈ m, a < p.1) : sparseGet d m a = d := by
  induction m with
  | nil => rfl
  | cons p rest ih =>
    have hp := h p (by simp)
    have ne : a ≠ p.1 := by omega
    simpa [sparseGet, ne] using ih fun q hq => h q (by simp [hq])

/-- What a write can list: the written pair, or a pair listed before. -/
theorem mem_sparseSet {α : Type} [DecidableEq α] (d : α) (m : List (Nat × α)) (a : Nat) (v : α) (p : Nat × α) (hp : p ∈ sparseSet d m a v) :
    (p = (a, v) ∧ v ≠ d) ∨ p ∈ m := by
  induction m with
  | nil =>
    by_cases hv : v = d <;> simp_all [sparseSet]
  | cons q rest ih =>
    obtain ⟨k, w⟩ := q
    unfold sparseSet at hp
    split at hp
    · split at hp
      · exact .inr hp
      · rcases List.mem_cons.1 hp with rfl | hp
        · exact .inl ⟨rfl, ‹_›⟩
        · exact .inr hp
    · split at hp
      · split at hp
        · exact .inr (List.mem_cons_of_mem _ hp)
        · rcases List.mem_cons.1 hp with rfl | hp
          · exact .inl ⟨rfl, ‹_›⟩
          · exact .inr (List.mem_cons_of_mem _ hp)
      · rcases List.mem_cons.1 hp with rfl | hp
        · exact .inr List.mem_cons_self
        · exact (ih hp).imp id (List.mem_cons_of_mem _)

/-- A write keeps the canonical form. -/
theorem sparseSet_wf {α : Type} [DecidableEq α] (d : α) (m : List (Nat × α)) (a : Nat) (v : α) (h : SparseWf d m) : SparseWf d (sparseSet d m a v) := by
  obtain ⟨rising, noDefault⟩ := h
  refine ⟨?_, ?_⟩
  · induction m with
    | nil => by_cases hv : v = d <;> simp [sparseSet, hv]
    | cons q rest ih =>
      obtain ⟨k, w⟩ := q
      have first := (List.pairwise_cons.1 rising).1
      have later := (List.pairwise_cons.1 rising).2
      by_cases hlt : a < k
      · by_cases hv : v = d
        · simpa [sparseSet, hlt, hv] using rising
        · simp only [sparseSet, hlt, hv, if_true, if_false, List.pairwise_cons]
          refine ⟨?_, first, later⟩
          intro p hp
          rcases List.mem_cons.1 hp with rfl | hp
          · exact hlt
          · exact Nat.lt_trans hlt (first p hp)
      · by_cases heq : a = k
        · subst heq
          by_cases hv : v = d
          · simpa [sparseSet, hv] using later
          · simp only [sparseSet, hv, Nat.lt_irrefl, if_true, if_false, List.pairwise_cons]
            exact ⟨first, later⟩
        · simp only [sparseSet, hlt, heq, if_false, List.pairwise_cons]
          refine ⟨?_, ih later fun p hp => noDefault p (by simp [hp])⟩
          intro p hp
          rcases mem_sparseSet d rest a v p hp with ⟨rfl, -⟩ | hp
          · simp only; omega
          · exact first p hp
  · intro p hp
    rcases mem_sparseSet d m a v p hp with ⟨rfl, hv⟩ | hp
    · exact hv
    · exact noDefault p hp

/-- A read after a write: the value written at its key, and elsewhere what was there. -/
theorem sparseGet_set {α : Type} [DecidableEq α] (d : α) (m : List (Nat × α)) (a b : Nat) (v : α) (h : SparseWf d m) :
    sparseGet d (sparseSet d m a v) b = if b = a then v else sparseGet d m b := by
  obtain ⟨rising, noDefault⟩ := h
  induction m with
  | nil =>
    by_cases hv : v = d <;> by_cases hb : b = a <;> simp [sparseSet, sparseGet, hv, hb]
  | cons q rest ih =>
    obtain ⟨k, w⟩ := q
    have first := (List.pairwise_cons.1 rising).1
    have later := (List.pairwise_cons.1 rising).2
    have hrec := ih later fun p hp => noDefault p (by simp [hp])
    by_cases hlt : a < k
    · by_cases hv : v = d
      · simp only [sparseSet, hlt, hv, if_true]
        by_cases hb : b = a
        · subst hb
          simp only [if_true]
          refine sparseGet_below d _ _ fun p hp => ?_
          rcases List.mem_cons.1 hp with rfl | hp
          · exact hlt
          · exact Nat.lt_trans hlt (first p hp)
        · simp [hb]
      · simp [sparseSet, hlt, hv, sparseGet]
    · by_cases heq : a = k
      · subst heq
        by_cases hv : v = d
        · simp only [sparseSet, hv, Nat.lt_irrefl, if_true, if_false]
          by_cases hb : b = a
          · subst hb
            simpa using sparseGet_below d rest _ first
          · simp [sparseGet, hb]
        · by_cases hb : b = a <;> simp [sparseSet, hv, sparseGet, hb]
      · simp only [sparseSet, hlt, heq, if_false, sparseGet]
        by_cases hb : b = k
        · have : b ≠ a := by omega
          simp [hb, Ne.symm heq]
        · simp [hb, hrec]

/-- A key written reads as the value written. -/
theorem sparseGet_set_same {α : Type} [DecidableEq α] (d : α) (m : List (Nat × α)) (a : Nat) (v : α) (h : SparseWf d m) :
    sparseGet d (sparseSet d m a v) a = v := by
  simp [sparseGet_set d m a a v h]

/-- A key not written reads as before. -/
theorem sparseGet_set_other {α : Type} [DecidableEq α] (d : α) (m : List (Nat × α)) {a b : Nat} (v : α) (h : SparseWf d m) (hb : b ≠ a) :
    sparseGet d (sparseSet d m a v) b = sparseGet d m b := by
  simp [sparseGet_set d m a b v h, hb]

/-- A table made from a function lists keys below its bound only. -/
theorem mem_sparseTable {α : Type} [DecidableEq α] (d : α) (n : Nat) (f : Nat → α) (p : Nat × α) :
    p ∈ sparseTable d n f ↔ p.1 < n ∧ p.2 = f p.1 ∧ p.2 ≠ d := by
  obtain ⟨k, v⟩ := p
  simp only [sparseTable, List.mem_filterMap, List.mem_range]
  constructor
  · rintro ⟨j, hj, h⟩
    by_cases hd : f j = d
    · simp [hd] at h
    · simp only [hd, if_false, Option.some.injEq, Prod.mk.injEq] at h
      obtain ⟨rfl, rfl⟩ := h
      exact ⟨hj, rfl, hd⟩
  · rintro ⟨hk, rfl, hd⟩
    exact ⟨k, hk, by simp at hd; simp [hd]⟩

/-- A table made from a function is in canonical form. -/
theorem sparseTable_wf {α : Type} [DecidableEq α] (d : α) (n : Nat) (f : Nat → α) : SparseWf d (sparseTable d n f) := by
  refine ⟨?_, fun p hp => ((mem_sparseTable d n f p).1 hp).2.2⟩
  unfold sparseTable
  refine List.Pairwise.filterMap _ ?_ (List.pairwise_lt_range (n := n))
  intro a b hab p hp q hq
  by_cases ha : f a = d <;> by_cases hb : f b = d <;> simp_all
  obtain rfl := hp
  obtain rfl := hq
  exact hab

/-- A key that some listed pair has reads as that pair's value. -/
theorem sparseGet_of_mem {α : Type} [DecidableEq α] (d : α) (m : List (Nat × α)) (p : Nat × α) (h : SparseWf d m) (hp : p ∈ m) :
    sparseGet d m p.1 = p.2 := by
  induction m with
  | nil => cases hp
  | cons q rest ih =>
    have first := (List.pairwise_cons.1 h.1).1
    rcases List.mem_cons.1 hp with rfl | later
    · obtain ⟨k, v⟩ := p
      simp [sparseGet]
    · have hlt := first p later
      have ne : p.1 ≠ q.1 := by omega
      have read := ih ⟨(List.pairwise_cons.1 h.1).2, fun r hr => h.2 r (List.mem_cons_of_mem _ hr)⟩ later
      obtain ⟨k, v⟩ := q
      simp only [sparseGet, ne, if_false]
      exact read

/-- A key that no listed pair has reads as the default. -/
theorem sparseGet_of_not_mem {α : Type} (d : α) (m : List (Nat × α)) (a : Nat) (h : ∀ p ∈ m, p.1 ≠ a) : sparseGet d m a = d := by
  induction m with
  | nil => rfl
  | cons q rest ih =>
    obtain ⟨k, v⟩ := q
    have ne : a ≠ k := fun e => h (k, v) (by simp) e.symm
    simpa [sparseGet, ne] using ih fun p hp => h p (by simp [hp])

/-- A table made from a function reads as the function below its bound. -/
theorem sparseGet_table {α : Type} [DecidableEq α] (d : α) (n : Nat) (f : Nat → α) (a : Nat) :
    sparseGet d (sparseTable d n f) a = if a < n then f a else d := by
  by_cases ha : a < n
  · by_cases hd : f a = d
    · rw [if_pos ha, hd]
      refine sparseGet_of_not_mem d _ a fun p hp e => ?_
      have := (mem_sparseTable d n f p).1 hp
      rw [e] at this
      exact this.2.2 (this.2.1.trans hd)
    · rw [if_pos ha]
      exact sparseGet_of_mem d _ (a, f a) (sparseTable_wf d n f) ((mem_sparseTable d n f _).2 ⟨ha, rfl, hd⟩)
  · rw [if_neg ha]
    refine sparseGet_of_not_mem d _ a fun p hp e => ha ?_
    have := ((mem_sparseTable d n f p).1 hp).1
    omega

/-- Two tables in canonical form that read alike are the same list. -/
theorem sparse_ext {α : Type} [DecidableEq α] (d : α) (m n : List (Nat × α)) (hm : SparseWf d m) (hn : SparseWf d n)
    (h : ∀ a, sparseGet d m a = sparseGet d n a) : m = n := by
  induction m generalizing n with
  | nil =>
    cases n with
    | nil => rfl
    | cons q rest =>
      have := h q.1
      rw [sparseGet_of_mem d _ q hn (by simp)] at this
      exact absurd this.symm (hn.2 q (by simp))
  | cons p mrest ih =>
    cases n with
    | nil =>
      have := h p.1
      rw [sparseGet_of_mem d _ p hm (by simp)] at this
      exact absurd this (hm.2 p (by simp))
    | cons q nrest =>
      have hmf := (List.pairwise_cons.1 hm.1).1
      have hnf := (List.pairwise_cons.1 hn.1).1
      have hp := h p.1
      have hq := h q.1
      rw [sparseGet_of_mem d _ p hm (by simp)] at hp
      rw [sparseGet_of_mem d _ q hn (by simp)] at hq
      have key : p.1 = q.1 := by
        rcases Nat.lt_trichotomy p.1 q.1 with hlt | heq | hgt
        · rw [sparseGet_below d _ p.1 (fun r hr => by
            rcases List.mem_cons.1 hr with rfl | hr
            · exact hlt
            · exact Nat.lt_trans hlt (hnf r hr))] at hp
          exact absurd hp (hm.2 p (by simp))
        · exact heq
        · rw [sparseGet_below d _ q.1 (fun r hr => by
            rcases List.mem_cons.1 hr with rfl | hr
            · exact hgt
            · exact Nat.lt_trans hgt (hmf r hr))] at hq
          exact absurd hq.symm (hn.2 q (by simp))
      have value : p.2 = q.2 := by
        rw [hp, key]
        exact sparseGet_of_mem d _ q hn (by simp)
      have eq : p = q := Prod.ext key value
      subst eq
      congr 1
      refine ih nrest ⟨(List.pairwise_cons.1 hm.1).2, fun r hr => hm.2 r (by simp [hr])⟩
        ⟨(List.pairwise_cons.1 hn.1).2, fun r hr => hn.2 r (by simp [hr])⟩ fun a => ?_
      by_cases ha : a = p.1
      · rw [sparseGet_below d mrest a fun r hr => ha ▸ hmf r hr, sparseGet_below d nrest a fun r hr => ha ▸ hnf r hr]
      · have := h a
        obtain ⟨k, v⟩ := p
        simpa [sparseGet, ha] using this

end Sys2Proof.Machine
end

