-- ==== Sys2Proof/Laws/State.lean ====
section
/-! SUPPORT. Every field of the state after every update of it, so that no proof unfolds a record update. -/

namespace Sys2Proof.Machine

/-! ### withPending -/

@[simp] theorem State.withPending_pending (s : State) (v : List Instr) : (s.withPending v).pending = v := rfl
@[simp] theorem State.withPending_engine (s : State) (v : List Instr) : (s.withPending v).engine = s.engine := rfl
@[simp] theorem State.withPending_lineChan (s : State) (v : List Instr) : (s.withPending v).lineChan = s.lineChan := rfl
@[simp] theorem State.withPending_localChan (s : State) (v : List Instr) : (s.withPending v).localChan = s.localChan := rfl
@[simp] theorem State.withPending_supervision (s : State) (v : List Instr) : (s.withPending v).supervision = s.supervision := rfl
@[simp] theorem State.withPending_strikes (s : State) (v : List Instr) : (s.withPending v).strikes = s.strikes := rfl
@[simp] theorem State.withPending_sustain (s : State) (v : List Instr) : (s.withPending v).sustain = s.sustain := rfl
@[simp] theorem State.withPending_tracker (s : State) (v : List Instr) : (s.withPending v).tracker = s.tracker := rfl
@[simp] theorem State.withPending_panel (s : State) (v : List Instr) : (s.withPending v).panel = s.panel := rfl
@[simp] theorem State.withPending_touch (s : State) (v : List Instr) : (s.withPending v).touch = s.touch := rfl
@[simp] theorem State.withPending_lineIf (s : State) (v : List Instr) : (s.withPending v).lineIf = s.lineIf := rfl
@[simp] theorem State.withPending_port (s : State) (v : List Instr) : (s.withPending v).port = s.port := rfl
@[simp] theorem State.withPending_station (s : State) (v : List Instr) : (s.withPending v).station = s.station := rfl
@[simp] theorem State.withPending_terminalReset (s : State) (v : List Instr) : (s.withPending v).terminalReset = s.terminalReset := rfl
@[simp] theorem State.withPending_event (s : State) (v : List Instr) : (s.withPending v).event = s.event := rfl

@[simp] theorem State.withPending_self (s : State) : s.withPending s.pending = s := rfl
@[simp] theorem State.withPending_twice (s : State) (u v : List Instr) : (s.withPending u).withPending v = s.withPending v := rfl
@[simp] theorem State.withPending_chan (s : State) (v : List Instr) (ch : Channel) : (s.withPending v).chan ch = s.chan ch := by
  cases ch <;> rfl

/-! ### withEngine -/

@[simp] theorem State.withEngine_pending (s : State) (v : Engine) : (s.withEngine v).pending = s.pending := rfl
@[simp] theorem State.withEngine_engine (s : State) (v : Engine) : (s.withEngine v).engine = v := rfl
@[simp] theorem State.withEngine_lineChan (s : State) (v : Engine) : (s.withEngine v).lineChan = s.lineChan := rfl
@[simp] theorem State.withEngine_localChan (s : State) (v : Engine) : (s.withEngine v).localChan = s.localChan := rfl
@[simp] theorem State.withEngine_supervision (s : State) (v : Engine) : (s.withEngine v).supervision = s.supervision := rfl
@[simp] theorem State.withEngine_strikes (s : State) (v : Engine) : (s.withEngine v).strikes = s.strikes := rfl
@[simp] theorem State.withEngine_sustain (s : State) (v : Engine) : (s.withEngine v).sustain = s.sustain := rfl
@[simp] theorem State.withEngine_tracker (s : State) (v : Engine) : (s.withEngine v).tracker = s.tracker := rfl
@[simp] theorem State.withEngine_panel (s : State) (v : Engine) : (s.withEngine v).panel = s.panel := rfl
@[simp] theorem State.withEngine_touch (s : State) (v : Engine) : (s.withEngine v).touch = s.touch := rfl
@[simp] theorem State.withEngine_lineIf (s : State) (v : Engine) : (s.withEngine v).lineIf = s.lineIf := rfl
@[simp] theorem State.withEngine_port (s : State) (v : Engine) : (s.withEngine v).port = s.port := rfl
@[simp] theorem State.withEngine_station (s : State) (v : Engine) : (s.withEngine v).station = s.station := rfl
@[simp] theorem State.withEngine_terminalReset (s : State) (v : Engine) : (s.withEngine v).terminalReset = s.terminalReset := rfl
@[simp] theorem State.withEngine_event (s : State) (v : Engine) : (s.withEngine v).event = s.event := rfl

@[simp] theorem State.withEngine_self (s : State) : s.withEngine s.engine = s := rfl
@[simp] theorem State.withEngine_twice (s : State) (u v : Engine) : (s.withEngine u).withEngine v = s.withEngine v := rfl
@[simp] theorem State.withEngine_chan (s : State) (v : Engine) (ch : Channel) : (s.withEngine v).chan ch = s.chan ch := by
  cases ch <;> rfl

/-! ### withLineChan -/

@[simp] theorem State.withLineChan_pending (s : State) (v : Chan) : (s.withLineChan v).pending = s.pending := rfl
@[simp] theorem State.withLineChan_engine (s : State) (v : Chan) : (s.withLineChan v).engine = s.engine := rfl
@[simp] theorem State.withLineChan_lineChan (s : State) (v : Chan) : (s.withLineChan v).lineChan = v := rfl
@[simp] theorem State.withLineChan_localChan (s : State) (v : Chan) : (s.withLineChan v).localChan = s.localChan := rfl
@[simp] theorem State.withLineChan_supervision (s : State) (v : Chan) : (s.withLineChan v).supervision = s.supervision := rfl
@[simp] theorem State.withLineChan_strikes (s : State) (v : Chan) : (s.withLineChan v).strikes = s.strikes := rfl
@[simp] theorem State.withLineChan_sustain (s : State) (v : Chan) : (s.withLineChan v).sustain = s.sustain := rfl
@[simp] theorem State.withLineChan_tracker (s : State) (v : Chan) : (s.withLineChan v).tracker = s.tracker := rfl
@[simp] theorem State.withLineChan_panel (s : State) (v : Chan) : (s.withLineChan v).panel = s.panel := rfl
@[simp] theorem State.withLineChan_touch (s : State) (v : Chan) : (s.withLineChan v).touch = s.touch := rfl
@[simp] theorem State.withLineChan_lineIf (s : State) (v : Chan) : (s.withLineChan v).lineIf = s.lineIf := rfl
@[simp] theorem State.withLineChan_port (s : State) (v : Chan) : (s.withLineChan v).port = s.port := rfl
@[simp] theorem State.withLineChan_station (s : State) (v : Chan) : (s.withLineChan v).station = s.station := rfl
@[simp] theorem State.withLineChan_terminalReset (s : State) (v : Chan) : (s.withLineChan v).terminalReset = s.terminalReset := rfl
@[simp] theorem State.withLineChan_event (s : State) (v : Chan) : (s.withLineChan v).event = s.event := rfl

@[simp] theorem State.withLineChan_self (s : State) : s.withLineChan s.lineChan = s := rfl
@[simp] theorem State.withLineChan_twice (s : State) (u v : Chan) : (s.withLineChan u).withLineChan v = s.withLineChan v := rfl

/-! ### withLocalChan -/

@[simp] theorem State.withLocalChan_pending (s : State) (v : Chan) : (s.withLocalChan v).pending = s.pending := rfl
@[simp] theorem State.withLocalChan_engine (s : State) (v : Chan) : (s.withLocalChan v).engine = s.engine := rfl
@[simp] theorem State.withLocalChan_lineChan (s : State) (v : Chan) : (s.withLocalChan v).lineChan = s.lineChan := rfl
@[simp] theorem State.withLocalChan_localChan (s : State) (v : Chan) : (s.withLocalChan v).localChan = v := rfl
@[simp] theorem State.withLocalChan_supervision (s : State) (v : Chan) : (s.withLocalChan v).supervision = s.supervision := rfl
@[simp] theorem State.withLocalChan_strikes (s : State) (v : Chan) : (s.withLocalChan v).strikes = s.strikes := rfl
@[simp] theorem State.withLocalChan_sustain (s : State) (v : Chan) : (s.withLocalChan v).sustain = s.sustain := rfl
@[simp] theorem State.withLocalChan_tracker (s : State) (v : Chan) : (s.withLocalChan v).tracker = s.tracker := rfl
@[simp] theorem State.withLocalChan_panel (s : State) (v : Chan) : (s.withLocalChan v).panel = s.panel := rfl
@[simp] theorem State.withLocalChan_touch (s : State) (v : Chan) : (s.withLocalChan v).touch = s.touch := rfl
@[simp] theorem State.withLocalChan_lineIf (s : State) (v : Chan) : (s.withLocalChan v).lineIf = s.lineIf := rfl
@[simp] theorem State.withLocalChan_port (s : State) (v : Chan) : (s.withLocalChan v).port = s.port := rfl
@[simp] theorem State.withLocalChan_station (s : State) (v : Chan) : (s.withLocalChan v).station = s.station := rfl
@[simp] theorem State.withLocalChan_terminalReset (s : State) (v : Chan) : (s.withLocalChan v).terminalReset = s.terminalReset := rfl
@[simp] theorem State.withLocalChan_event (s : State) (v : Chan) : (s.withLocalChan v).event = s.event := rfl

@[simp] theorem State.withLocalChan_self (s : State) : s.withLocalChan s.localChan = s := rfl
@[simp] theorem State.withLocalChan_twice (s : State) (u v : Chan) : (s.withLocalChan u).withLocalChan v = s.withLocalChan v := rfl

/-! ### withSupervision -/

@[simp] theorem State.withSupervision_pending (s : State) (v : Supervision) : (s.withSupervision v).pending = s.pending := rfl
@[simp] theorem State.withSupervision_engine (s : State) (v : Supervision) : (s.withSupervision v).engine = s.engine := rfl
@[simp] theorem State.withSupervision_lineChan (s : State) (v : Supervision) : (s.withSupervision v).lineChan = s.lineChan := rfl
@[simp] theorem State.withSupervision_localChan (s : State) (v : Supervision) : (s.withSupervision v).localChan = s.localChan := rfl
@[simp] theorem State.withSupervision_supervision (s : State) (v : Supervision) : (s.withSupervision v).supervision = v := rfl
@[simp] theorem State.withSupervision_strikes (s : State) (v : Supervision) : (s.withSupervision v).strikes = s.strikes := rfl
@[simp] theorem State.withSupervision_sustain (s : State) (v : Supervision) : (s.withSupervision v).sustain = s.sustain := rfl
@[simp] theorem State.withSupervision_tracker (s : State) (v : Supervision) : (s.withSupervision v).tracker = s.tracker := rfl
@[simp] theorem State.withSupervision_panel (s : State) (v : Supervision) : (s.withSupervision v).panel = s.panel := rfl
@[simp] theorem State.withSupervision_touch (s : State) (v : Supervision) : (s.withSupervision v).touch = s.touch := rfl
@[simp] theorem State.withSupervision_lineIf (s : State) (v : Supervision) : (s.withSupervision v).lineIf = s.lineIf := rfl
@[simp] theorem State.withSupervision_port (s : State) (v : Supervision) : (s.withSupervision v).port = s.port := rfl
@[simp] theorem State.withSupervision_station (s : State) (v : Supervision) : (s.withSupervision v).station = s.station := rfl
@[simp] theorem State.withSupervision_terminalReset (s : State) (v : Supervision) : (s.withSupervision v).terminalReset = s.terminalReset := rfl
@[simp] theorem State.withSupervision_event (s : State) (v : Supervision) : (s.withSupervision v).event = s.event := rfl

@[simp] theorem State.withSupervision_self (s : State) : s.withSupervision s.supervision = s := rfl
@[simp] theorem State.withSupervision_twice (s : State) (u v : Supervision) : (s.withSupervision u).withSupervision v = s.withSupervision v := rfl
@[simp] theorem State.withSupervision_chan (s : State) (v : Supervision) (ch : Channel) : (s.withSupervision v).chan ch = s.chan ch := by
  cases ch <;> rfl

/-! ### withStrikes -/

@[simp] theorem State.withStrikes_pending (s : State) (v : Strikes) : (s.withStrikes v).pending = s.pending := rfl
@[simp] theorem State.withStrikes_engine (s : State) (v : Strikes) : (s.withStrikes v).engine = s.engine := rfl
@[simp] theorem State.withStrikes_lineChan (s : State) (v : Strikes) : (s.withStrikes v).lineChan = s.lineChan := rfl
@[simp] theorem State.withStrikes_localChan (s : State) (v : Strikes) : (s.withStrikes v).localChan = s.localChan := rfl
@[simp] theorem State.withStrikes_supervision (s : State) (v : Strikes) : (s.withStrikes v).supervision = s.supervision := rfl
@[simp] theorem State.withStrikes_strikes (s : State) (v : Strikes) : (s.withStrikes v).strikes = v := rfl
@[simp] theorem State.withStrikes_sustain (s : State) (v : Strikes) : (s.withStrikes v).sustain = s.sustain := rfl
@[simp] theorem State.withStrikes_tracker (s : State) (v : Strikes) : (s.withStrikes v).tracker = s.tracker := rfl
@[simp] theorem State.withStrikes_panel (s : State) (v : Strikes) : (s.withStrikes v).panel = s.panel := rfl
@[simp] theorem State.withStrikes_touch (s : State) (v : Strikes) : (s.withStrikes v).touch = s.touch := rfl
@[simp] theorem State.withStrikes_lineIf (s : State) (v : Strikes) : (s.withStrikes v).lineIf = s.lineIf := rfl
@[simp] theorem State.withStrikes_port (s : State) (v : Strikes) : (s.withStrikes v).port = s.port := rfl
@[simp] theorem State.withStrikes_station (s : State) (v : Strikes) : (s.withStrikes v).station = s.station := rfl
@[simp] theorem State.withStrikes_terminalReset (s : State) (v : Strikes) : (s.withStrikes v).terminalReset = s.terminalReset := rfl
@[simp] theorem State.withStrikes_event (s : State) (v : Strikes) : (s.withStrikes v).event = s.event := rfl

@[simp] theorem State.withStrikes_self (s : State) : s.withStrikes s.strikes = s := rfl
@[simp] theorem State.withStrikes_twice (s : State) (u v : Strikes) : (s.withStrikes u).withStrikes v = s.withStrikes v := rfl
@[simp] theorem State.withStrikes_chan (s : State) (v : Strikes) (ch : Channel) : (s.withStrikes v).chan ch = s.chan ch := by
  cases ch <;> rfl

/-! ### withSustain -/

@[simp] theorem State.withSustain_pending (s : State) (v : Sustain) : (s.withSustain v).pending = s.pending := rfl
@[simp] theorem State.withSustain_engine (s : State) (v : Sustain) : (s.withSustain v).engine = s.engine := rfl
@[simp] theorem State.withSustain_lineChan (s : State) (v : Sustain) : (s.withSustain v).lineChan = s.lineChan := rfl
@[simp] theorem State.withSustain_localChan (s : State) (v : Sustain) : (s.withSustain v).localChan = s.localChan := rfl
@[simp] theorem State.withSustain_supervision (s : State) (v : Sustain) : (s.withSustain v).supervision = s.supervision := rfl
@[simp] theorem State.withSustain_strikes (s : State) (v : Sustain) : (s.withSustain v).strikes = s.strikes := rfl
@[simp] theorem State.withSustain_sustain (s : State) (v : Sustain) : (s.withSustain v).sustain = v := rfl
@[simp] theorem State.withSustain_tracker (s : State) (v : Sustain) : (s.withSustain v).tracker = s.tracker := rfl
@[simp] theorem State.withSustain_panel (s : State) (v : Sustain) : (s.withSustain v).panel = s.panel := rfl
@[simp] theorem State.withSustain_touch (s : State) (v : Sustain) : (s.withSustain v).touch = s.touch := rfl
@[simp] theorem State.withSustain_lineIf (s : State) (v : Sustain) : (s.withSustain v).lineIf = s.lineIf := rfl
@[simp] theorem State.withSustain_port (s : State) (v : Sustain) : (s.withSustain v).port = s.port := rfl
@[simp] theorem State.withSustain_station (s : State) (v : Sustain) : (s.withSustain v).station = s.station := rfl
@[simp] theorem State.withSustain_terminalReset (s : State) (v : Sustain) : (s.withSustain v).terminalReset = s.terminalReset := rfl
@[simp] theorem State.withSustain_event (s : State) (v : Sustain) : (s.withSustain v).event = s.event := rfl

@[simp] theorem State.withSustain_self (s : State) : s.withSustain s.sustain = s := rfl
@[simp] theorem State.withSustain_twice (s : State) (u v : Sustain) : (s.withSustain u).withSustain v = s.withSustain v := rfl
@[simp] theorem State.withSustain_chan (s : State) (v : Sustain) (ch : Channel) : (s.withSustain v).chan ch = s.chan ch := by
  cases ch <;> rfl

/-! ### withTracker -/

@[simp] theorem State.withTracker_pending (s : State) (v : Tracker) : (s.withTracker v).pending = s.pending := rfl
@[simp] theorem State.withTracker_engine (s : State) (v : Tracker) : (s.withTracker v).engine = s.engine := rfl
@[simp] theorem State.withTracker_lineChan (s : State) (v : Tracker) : (s.withTracker v).lineChan = s.lineChan := rfl
@[simp] theorem State.withTracker_localChan (s : State) (v : Tracker) : (s.withTracker v).localChan = s.localChan := rfl
@[simp] theorem State.withTracker_supervision (s : State) (v : Tracker) : (s.withTracker v).supervision = s.supervision := rfl
@[simp] theorem State.withTracker_strikes (s : State) (v : Tracker) : (s.withTracker v).strikes = s.strikes := rfl
@[simp] theorem State.withTracker_sustain (s : State) (v : Tracker) : (s.withTracker v).sustain = s.sustain := rfl
@[simp] theorem State.withTracker_tracker (s : State) (v : Tracker) : (s.withTracker v).tracker = v := rfl
@[simp] theorem State.withTracker_panel (s : State) (v : Tracker) : (s.withTracker v).panel = s.panel := rfl
@[simp] theorem State.withTracker_touch (s : State) (v : Tracker) : (s.withTracker v).touch = s.touch := rfl
@[simp] theorem State.withTracker_lineIf (s : State) (v : Tracker) : (s.withTracker v).lineIf = s.lineIf := rfl
@[simp] theorem State.withTracker_port (s : State) (v : Tracker) : (s.withTracker v).port = s.port := rfl
@[simp] theorem State.withTracker_station (s : State) (v : Tracker) : (s.withTracker v).station = s.station := rfl
@[simp] theorem State.withTracker_terminalReset (s : State) (v : Tracker) : (s.withTracker v).terminalReset = s.terminalReset := rfl
@[simp] theorem State.withTracker_event (s : State) (v : Tracker) : (s.withTracker v).event = s.event := rfl

@[simp] theorem State.withTracker_self (s : State) : s.withTracker s.tracker = s := rfl
@[simp] theorem State.withTracker_twice (s : State) (u v : Tracker) : (s.withTracker u).withTracker v = s.withTracker v := rfl
@[simp] theorem State.withTracker_chan (s : State) (v : Tracker) (ch : Channel) : (s.withTracker v).chan ch = s.chan ch := by
  cases ch <;> rfl

/-! ### withPanel -/

@[simp] theorem State.withPanel_pending (s : State) (v : Panel) : (s.withPanel v).pending = s.pending := rfl
@[simp] theorem State.withPanel_engine (s : State) (v : Panel) : (s.withPanel v).engine = s.engine := rfl
@[simp] theorem State.withPanel_lineChan (s : State) (v : Panel) : (s.withPanel v).lineChan = s.lineChan := rfl
@[simp] theorem State.withPanel_localChan (s : State) (v : Panel) : (s.withPanel v).localChan = s.localChan := rfl
@[simp] theorem State.withPanel_supervision (s : State) (v : Panel) : (s.withPanel v).supervision = s.supervision := rfl
@[simp] theorem State.withPanel_strikes (s : State) (v : Panel) : (s.withPanel v).strikes = s.strikes := rfl
@[simp] theorem State.withPanel_sustain (s : State) (v : Panel) : (s.withPanel v).sustain = s.sustain := rfl
@[simp] theorem State.withPanel_tracker (s : State) (v : Panel) : (s.withPanel v).tracker = s.tracker := rfl
@[simp] theorem State.withPanel_panel (s : State) (v : Panel) : (s.withPanel v).panel = v := rfl
@[simp] theorem State.withPanel_touch (s : State) (v : Panel) : (s.withPanel v).touch = s.touch := rfl
@[simp] theorem State.withPanel_lineIf (s : State) (v : Panel) : (s.withPanel v).lineIf = s.lineIf := rfl
@[simp] theorem State.withPanel_port (s : State) (v : Panel) : (s.withPanel v).port = s.port := rfl
@[simp] theorem State.withPanel_station (s : State) (v : Panel) : (s.withPanel v).station = s.station := rfl
@[simp] theorem State.withPanel_terminalReset (s : State) (v : Panel) : (s.withPanel v).terminalReset = s.terminalReset := rfl
@[simp] theorem State.withPanel_event (s : State) (v : Panel) : (s.withPanel v).event = s.event := rfl

@[simp] theorem State.withPanel_self (s : State) : s.withPanel s.panel = s := rfl
@[simp] theorem State.withPanel_twice (s : State) (u v : Panel) : (s.withPanel u).withPanel v = s.withPanel v := rfl
@[simp] theorem State.withPanel_chan (s : State) (v : Panel) (ch : Channel) : (s.withPanel v).chan ch = s.chan ch := by
  cases ch <;> rfl

/-! ### withTouch -/

@[simp] theorem State.withTouch_pending (s : State) (v : Touch) : (s.withTouch v).pending = s.pending := rfl
@[simp] theorem State.withTouch_engine (s : State) (v : Touch) : (s.withTouch v).engine = s.engine := rfl
@[simp] theorem State.withTouch_lineChan (s : State) (v : Touch) : (s.withTouch v).lineChan = s.lineChan := rfl
@[simp] theorem State.withTouch_localChan (s : State) (v : Touch) : (s.withTouch v).localChan = s.localChan := rfl
@[simp] theorem State.withTouch_supervision (s : State) (v : Touch) : (s.withTouch v).supervision = s.supervision := rfl
@[simp] theorem State.withTouch_strikes (s : State) (v : Touch) : (s.withTouch v).strikes = s.strikes := rfl
@[simp] theorem State.withTouch_sustain (s : State) (v : Touch) : (s.withTouch v).sustain = s.sustain := rfl
@[simp] theorem State.withTouch_tracker (s : State) (v : Touch) : (s.withTouch v).tracker = s.tracker := rfl
@[simp] theorem State.withTouch_panel (s : State) (v : Touch) : (s.withTouch v).panel = s.panel := rfl
@[simp] theorem State.withTouch_touch (s : State) (v : Touch) : (s.withTouch v).touch = v := rfl
@[simp] theorem State.withTouch_lineIf (s : State) (v : Touch) : (s.withTouch v).lineIf = s.lineIf := rfl
@[simp] theorem State.withTouch_port (s : State) (v : Touch) : (s.withTouch v).port = s.port := rfl
@[simp] theorem State.withTouch_station (s : State) (v : Touch) : (s.withTouch v).station = s.station := rfl
@[simp] theorem State.withTouch_terminalReset (s : State) (v : Touch) : (s.withTouch v).terminalReset = s.terminalReset := rfl
@[simp] theorem State.withTouch_event (s : State) (v : Touch) : (s.withTouch v).event = s.event := rfl

@[simp] theorem State.withTouch_self (s : State) : s.withTouch s.touch = s := rfl
@[simp] theorem State.withTouch_twice (s : State) (u v : Touch) : (s.withTouch u).withTouch v = s.withTouch v := rfl
@[simp] theorem State.withTouch_chan (s : State) (v : Touch) (ch : Channel) : (s.withTouch v).chan ch = s.chan ch := by
  cases ch <;> rfl

/-! ### withLineIf -/

@[simp] theorem State.withLineIf_pending (s : State) (v : LineInterface) : (s.withLineIf v).pending = s.pending := rfl
@[simp] theorem State.withLineIf_engine (s : State) (v : LineInterface) : (s.withLineIf v).engine = s.engine := rfl
@[simp] theorem State.withLineIf_lineChan (s : State) (v : LineInterface) : (s.withLineIf v).lineChan = s.lineChan := rfl
@[simp] theorem State.withLineIf_localChan (s : State) (v : LineInterface) : (s.withLineIf v).localChan = s.localChan := rfl
@[simp] theorem State.withLineIf_supervision (s : State) (v : LineInterface) : (s.withLineIf v).supervision = s.supervision := rfl
@[simp] theorem State.withLineIf_strikes (s : State) (v : LineInterface) : (s.withLineIf v).strikes = s.strikes := rfl
@[simp] theorem State.withLineIf_sustain (s : State) (v : LineInterface) : (s.withLineIf v).sustain = s.sustain := rfl
@[simp] theorem State.withLineIf_tracker (s : State) (v : LineInterface) : (s.withLineIf v).tracker = s.tracker := rfl
@[simp] theorem State.withLineIf_panel (s : State) (v : LineInterface) : (s.withLineIf v).panel = s.panel := rfl
@[simp] theorem State.withLineIf_touch (s : State) (v : LineInterface) : (s.withLineIf v).touch = s.touch := rfl
@[simp] theorem State.withLineIf_lineIf (s : State) (v : LineInterface) : (s.withLineIf v).lineIf = v := rfl
@[simp] theorem State.withLineIf_port (s : State) (v : LineInterface) : (s.withLineIf v).port = s.port := rfl
@[simp] theorem State.withLineIf_station (s : State) (v : LineInterface) : (s.withLineIf v).station = s.station := rfl
@[simp] theorem State.withLineIf_terminalReset (s : State) (v : LineInterface) : (s.withLineIf v).terminalReset = s.terminalReset := rfl
@[simp] theorem State.withLineIf_event (s : State) (v : LineInterface) : (s.withLineIf v).event = s.event := rfl

@[simp] theorem State.withLineIf_self (s : State) : s.withLineIf s.lineIf = s := rfl
@[simp] theorem State.withLineIf_twice (s : State) (u v : LineInterface) : (s.withLineIf u).withLineIf v = s.withLineIf v := rfl
@[simp] theorem State.withLineIf_chan (s : State) (v : LineInterface) (ch : Channel) : (s.withLineIf v).chan ch = s.chan ch := by
  cases ch <;> rfl

/-! ### withPort -/

@[simp] theorem State.withPort_pending (s : State) (v : Port) : (s.withPort v).pending = s.pending := rfl
@[simp] theorem State.withPort_engine (s : State) (v : Port) : (s.withPort v).engine = s.engine := rfl
@[simp] theorem State.withPort_lineChan (s : State) (v : Port) : (s.withPort v).lineChan = s.lineChan := rfl
@[simp] theorem State.withPort_localChan (s : State) (v : Port) : (s.withPort v).localChan = s.localChan := rfl
@[simp] theorem State.withPort_supervision (s : State) (v : Port) : (s.withPort v).supervision = s.supervision := rfl
@[simp] theorem State.withPort_strikes (s : State) (v : Port) : (s.withPort v).strikes = s.strikes := rfl
@[simp] theorem State.withPort_sustain (s : State) (v : Port) : (s.withPort v).sustain = s.sustain := rfl
@[simp] theorem State.withPort_tracker (s : State) (v : Port) : (s.withPort v).tracker = s.tracker := rfl
@[simp] theorem State.withPort_panel (s : State) (v : Port) : (s.withPort v).panel = s.panel := rfl
@[simp] theorem State.withPort_touch (s : State) (v : Port) : (s.withPort v).touch = s.touch := rfl
@[simp] theorem State.withPort_lineIf (s : State) (v : Port) : (s.withPort v).lineIf = s.lineIf := rfl
@[simp] theorem State.withPort_port (s : State) (v : Port) : (s.withPort v).port = v := rfl
@[simp] theorem State.withPort_station (s : State) (v : Port) : (s.withPort v).station = s.station := rfl
@[simp] theorem State.withPort_terminalReset (s : State) (v : Port) : (s.withPort v).terminalReset = s.terminalReset := rfl
@[simp] theorem State.withPort_event (s : State) (v : Port) : (s.withPort v).event = s.event := rfl

@[simp] theorem State.withPort_self (s : State) : s.withPort s.port = s := rfl
@[simp] theorem State.withPort_twice (s : State) (u v : Port) : (s.withPort u).withPort v = s.withPort v := rfl
@[simp] theorem State.withPort_chan (s : State) (v : Port) (ch : Channel) : (s.withPort v).chan ch = s.chan ch := by
  cases ch <;> rfl

/-! ### withStation -/

@[simp] theorem State.withStation_pending (s : State) (v : Station) : (s.withStation v).pending = s.pending := rfl
@[simp] theorem State.withStation_engine (s : State) (v : Station) : (s.withStation v).engine = s.engine := rfl
@[simp] theorem State.withStation_lineChan (s : State) (v : Station) : (s.withStation v).lineChan = s.lineChan := rfl
@[simp] theorem State.withStation_localChan (s : State) (v : Station) : (s.withStation v).localChan = s.localChan := rfl
@[simp] theorem State.withStation_supervision (s : State) (v : Station) : (s.withStation v).supervision = s.supervision := rfl
@[simp] theorem State.withStation_strikes (s : State) (v : Station) : (s.withStation v).strikes = s.strikes := rfl
@[simp] theorem State.withStation_sustain (s : State) (v : Station) : (s.withStation v).sustain = s.sustain := rfl
@[simp] theorem State.withStation_tracker (s : State) (v : Station) : (s.withStation v).tracker = s.tracker := rfl
@[simp] theorem State.withStation_panel (s : State) (v : Station) : (s.withStation v).panel = s.panel := rfl
@[simp] theorem State.withStation_touch (s : State) (v : Station) : (s.withStation v).touch = s.touch := rfl
@[simp] theorem State.withStation_lineIf (s : State) (v : Station) : (s.withStation v).lineIf = s.lineIf := rfl
@[simp] theorem State.withStation_port (s : State) (v : Station) : (s.withStation v).port = s.port := rfl
@[simp] theorem State.withStation_station (s : State) (v : Station) : (s.withStation v).station = v := rfl
@[simp] theorem State.withStation_terminalReset (s : State) (v : Station) : (s.withStation v).terminalReset = s.terminalReset := rfl
@[simp] theorem State.withStation_event (s : State) (v : Station) : (s.withStation v).event = s.event := rfl

@[simp] theorem State.withStation_self (s : State) : s.withStation s.station = s := rfl
@[simp] theorem State.withStation_twice (s : State) (u v : Station) : (s.withStation u).withStation v = s.withStation v := rfl
@[simp] theorem State.withStation_chan (s : State) (v : Station) (ch : Channel) : (s.withStation v).chan ch = s.chan ch := by
  cases ch <;> rfl

/-! ### withTerminalReset -/

@[simp] theorem State.withTerminalReset_pending (s : State) (v : Bool) : (s.withTerminalReset v).pending = s.pending := rfl
@[simp] theorem State.withTerminalReset_engine (s : State) (v : Bool) : (s.withTerminalReset v).engine = s.engine := rfl
@[simp] theorem State.withTerminalReset_lineChan (s : State) (v : Bool) : (s.withTerminalReset v).lineChan = s.lineChan := rfl
@[simp] theorem State.withTerminalReset_localChan (s : State) (v : Bool) : (s.withTerminalReset v).localChan = s.localChan := rfl
@[simp] theorem State.withTerminalReset_supervision (s : State) (v : Bool) : (s.withTerminalReset v).supervision = s.supervision := rfl
@[simp] theorem State.withTerminalReset_strikes (s : State) (v : Bool) : (s.withTerminalReset v).strikes = s.strikes := rfl
@[simp] theorem State.withTerminalReset_sustain (s : State) (v : Bool) : (s.withTerminalReset v).sustain = s.sustain := rfl
@[simp] theorem State.withTerminalReset_tracker (s : State) (v : Bool) : (s.withTerminalReset v).tracker = s.tracker := rfl
@[simp] theorem State.withTerminalReset_panel (s : State) (v : Bool) : (s.withTerminalReset v).panel = s.panel := rfl
@[simp] theorem State.withTerminalReset_touch (s : State) (v : Bool) : (s.withTerminalReset v).touch = s.touch := rfl
@[simp] theorem State.withTerminalReset_lineIf (s : State) (v : Bool) : (s.withTerminalReset v).lineIf = s.lineIf := rfl
@[simp] theorem State.withTerminalReset_port (s : State) (v : Bool) : (s.withTerminalReset v).port = s.port := rfl
@[simp] theorem State.withTerminalReset_station (s : State) (v : Bool) : (s.withTerminalReset v).station = s.station := rfl
@[simp] theorem State.withTerminalReset_terminalReset (s : State) (v : Bool) : (s.withTerminalReset v).terminalReset = v := rfl
@[simp] theorem State.withTerminalReset_event (s : State) (v : Bool) : (s.withTerminalReset v).event = s.event := rfl

@[simp] theorem State.withTerminalReset_self (s : State) : s.withTerminalReset s.terminalReset = s := rfl
@[simp] theorem State.withTerminalReset_twice (s : State) (u v : Bool) : (s.withTerminalReset u).withTerminalReset v = s.withTerminalReset v := rfl
@[simp] theorem State.withTerminalReset_chan (s : State) (v : Bool) (ch : Channel) : (s.withTerminalReset v).chan ch = s.chan ch := by
  cases ch <;> rfl

/-! ### withEvent -/

@[simp] theorem State.withEvent_pending (s : State) (v : Option Before) : (s.withEvent v).pending = s.pending := rfl
@[simp] theorem State.withEvent_engine (s : State) (v : Option Before) : (s.withEvent v).engine = s.engine := rfl
@[simp] theorem State.withEvent_lineChan (s : State) (v : Option Before) : (s.withEvent v).lineChan = s.lineChan := rfl
@[simp] theorem State.withEvent_localChan (s : State) (v : Option Before) : (s.withEvent v).localChan = s.localChan := rfl
@[simp] theorem State.withEvent_supervision (s : State) (v : Option Before) : (s.withEvent v).supervision = s.supervision := rfl
@[simp] theorem State.withEvent_strikes (s : State) (v : Option Before) : (s.withEvent v).strikes = s.strikes := rfl
@[simp] theorem State.withEvent_sustain (s : State) (v : Option Before) : (s.withEvent v).sustain = s.sustain := rfl
@[simp] theorem State.withEvent_tracker (s : State) (v : Option Before) : (s.withEvent v).tracker = s.tracker := rfl
@[simp] theorem State.withEvent_panel (s : State) (v : Option Before) : (s.withEvent v).panel = s.panel := rfl
@[simp] theorem State.withEvent_touch (s : State) (v : Option Before) : (s.withEvent v).touch = s.touch := rfl
@[simp] theorem State.withEvent_lineIf (s : State) (v : Option Before) : (s.withEvent v).lineIf = s.lineIf := rfl
@[simp] theorem State.withEvent_port (s : State) (v : Option Before) : (s.withEvent v).port = s.port := rfl
@[simp] theorem State.withEvent_station (s : State) (v : Option Before) : (s.withEvent v).station = s.station := rfl
@[simp] theorem State.withEvent_terminalReset (s : State) (v : Option Before) : (s.withEvent v).terminalReset = s.terminalReset := rfl
@[simp] theorem State.withEvent_event (s : State) (v : Option Before) : (s.withEvent v).event = v := rfl

@[simp] theorem State.withEvent_self (s : State) : s.withEvent s.event = s := rfl
@[simp] theorem State.withEvent_twice (s : State) (u v : Option Before) : (s.withEvent u).withEvent v = s.withEvent v := rfl
@[simp] theorem State.withEvent_chan (s : State) (v : Option Before) (ch : Channel) : (s.withEvent v).chan ch = s.chan ch := by
  cases ch <;> rfl

/-! ### Channels by name -/

@[simp] theorem State.chan_line (s : State) : s.chan .lineCh = s.lineChan := rfl
@[simp] theorem State.chan_local (s : State) : s.chan .localCh = s.localChan := rfl
@[simp] theorem State.withChan_line (s : State) (c : Chan) : s.withChan .lineCh c = s.withLineChan c := rfl
@[simp] theorem State.withChan_local (s : State) (c : Chan) : s.withChan .localCh c = s.withLocalChan c := rfl

theorem State.withChan_chan (s : State) (ch : Channel) (c : Chan) : (s.withChan ch c).chan ch = c := by cases ch <;> rfl

theorem State.withChan_chan_ne (s : State) {ch other : Channel} (c : Chan) (h : other ≠ ch) :
    (s.withChan ch c).chan other = s.chan other := by
  cases ch <;> cases other <;> first | rfl | exact absurd rfl h

@[simp] theorem State.withChan_self (s : State) (ch : Channel) : s.withChan ch (s.chan ch) = s := by cases ch <;> rfl

@[simp] theorem State.withChan_pending (s : State) (ch : Channel) (c : Chan) : (s.withChan ch c).pending = s.pending := by
  cases ch <;> rfl
@[simp] theorem State.withChan_engine (s : State) (ch : Channel) (c : Chan) : (s.withChan ch c).engine = s.engine := by
  cases ch <;> rfl
@[simp] theorem State.withChan_supervision (s : State) (ch : Channel) (c : Chan) : (s.withChan ch c).supervision = s.supervision := by
  cases ch <;> rfl
@[simp] theorem State.withChan_strikes (s : State) (ch : Channel) (c : Chan) : (s.withChan ch c).strikes = s.strikes := by
  cases ch <;> rfl
@[simp] theorem State.withChan_sustain (s : State) (ch : Channel) (c : Chan) : (s.withChan ch c).sustain = s.sustain := by
  cases ch <;> rfl
@[simp] theorem State.withChan_tracker (s : State) (ch : Channel) (c : Chan) : (s.withChan ch c).tracker = s.tracker := by
  cases ch <;> rfl
@[simp] theorem State.withChan_panel (s : State) (ch : Channel) (c : Chan) : (s.withChan ch c).panel = s.panel := by
  cases ch <;> rfl
@[simp] theorem State.withChan_touch (s : State) (ch : Channel) (c : Chan) : (s.withChan ch c).touch = s.touch := by
  cases ch <;> rfl
@[simp] theorem State.withChan_lineIf (s : State) (ch : Channel) (c : Chan) : (s.withChan ch c).lineIf = s.lineIf := by
  cases ch <;> rfl
@[simp] theorem State.withChan_port (s : State) (ch : Channel) (c : Chan) : (s.withChan ch c).port = s.port := by
  cases ch <;> rfl
@[simp] theorem State.withChan_station (s : State) (ch : Channel) (c : Chan) : (s.withChan ch c).station = s.station := by
  cases ch <;> rfl
@[simp] theorem State.withChan_terminalReset (s : State) (ch : Channel) (c : Chan) : (s.withChan ch c).terminalReset = s.terminalReset := by
  cases ch <;> rfl
@[simp] theorem State.withChan_event (s : State) (ch : Channel) (c : Chan) : (s.withChan ch c).event = s.event := by
  cases ch <;> rfl

/-! ### Raising a flag -/

@[simp] theorem raiseFlag_pending (f : EventFlag) (s : State) : (raiseFlag f s).pending = s.pending := rfl
@[simp] theorem raiseFlag_engine (f : EventFlag) (s : State) : (raiseFlag f s).engine = s.engine := rfl
@[simp] theorem raiseFlag_lineChan (f : EventFlag) (s : State) : (raiseFlag f s).lineChan = s.lineChan := rfl
@[simp] theorem raiseFlag_localChan (f : EventFlag) (s : State) : (raiseFlag f s).localChan = s.localChan := rfl
@[simp] theorem raiseFlag_supervision (f : EventFlag) (s : State) : (raiseFlag f s).supervision = s.supervision := rfl
@[simp] theorem raiseFlag_strikes (f : EventFlag) (s : State) : (raiseFlag f s).strikes = s.strikes := rfl
@[simp] theorem raiseFlag_sustain (f : EventFlag) (s : State) : (raiseFlag f s).sustain = s.sustain := rfl
@[simp] theorem raiseFlag_tracker (f : EventFlag) (s : State) : (raiseFlag f s).tracker = s.tracker := rfl
@[simp] theorem raiseFlag_panel (f : EventFlag) (s : State) : (raiseFlag f s).panel = s.panel := rfl
@[simp] theorem raiseFlag_touch (f : EventFlag) (s : State) : (raiseFlag f s).touch = s.touch := rfl
@[simp] theorem raiseFlag_lineIf (f : EventFlag) (s : State) : (raiseFlag f s).lineIf = s.lineIf := rfl
@[simp] theorem raiseFlag_station (f : EventFlag) (s : State) : (raiseFlag f s).station = s.station := rfl
@[simp] theorem raiseFlag_terminalReset (f : EventFlag) (s : State) : (raiseFlag f s).terminalReset = s.terminalReset := rfl
@[simp] theorem raiseFlag_event (f : EventFlag) (s : State) : (raiseFlag f s).event = s.event := rfl
@[simp] theorem raiseFlag_port_input (f : EventFlag) (s : State) : (raiseFlag f s).port.input = s.port.input := rfl
@[simp] theorem raiseFlag_port_overflow (f : EventFlag) (s : State) : (raiseFlag f s).port.overflow = s.port.overflow := rfl
@[simp] theorem raiseFlag_port_enables (f : EventFlag) (s : State) : (raiseFlag f s).port.enables = s.port.enables := rfl
@[simp] theorem raiseFlag_port_select (f : EventFlag) (s : State) : (raiseFlag f s).port.select = s.port.select := rfl
@[simp] theorem raiseFlag_port_data (f : EventFlag) (s : State) : (raiseFlag f s).port.data = s.port.data := rfl
@[simp] theorem raiseFlag_chan (f : EventFlag) (s : State) (ch : Channel) : (raiseFlag f s).chan ch = s.chan ch := by
  cases ch <;> rfl

@[simp] theorem raiseWhen_pending (b : Bool) (f : EventFlag) (s : State) : (raiseWhen b f s).pending = s.pending := by
  cases b <;> rfl
@[simp] theorem raiseWhen_engine (b : Bool) (f : EventFlag) (s : State) : (raiseWhen b f s).engine = s.engine := by
  cases b <;> rfl
@[simp] theorem raiseWhen_lineChan (b : Bool) (f : EventFlag) (s : State) : (raiseWhen b f s).lineChan = s.lineChan := by
  cases b <;> rfl
@[simp] theorem raiseWhen_localChan (b : Bool) (f : EventFlag) (s : State) : (raiseWhen b f s).localChan = s.localChan := by
  cases b <;> rfl
@[simp] theorem raiseWhen_supervision (b : Bool) (f : EventFlag) (s : State) : (raiseWhen b f s).supervision = s.supervision := by
  cases b <;> rfl
@[simp] theorem raiseWhen_strikes (b : Bool) (f : EventFlag) (s : State) : (raiseWhen b f s).strikes = s.strikes := by
  cases b <;> rfl
@[simp] theorem raiseWhen_sustain (b : Bool) (f : EventFlag) (s : State) : (raiseWhen b f s).sustain = s.sustain := by
  cases b <;> rfl
@[simp] theorem raiseWhen_tracker (b : Bool) (f : EventFlag) (s : State) : (raiseWhen b f s).tracker = s.tracker := by
  cases b <;> rfl
@[simp] theorem raiseWhen_panel (b : Bool) (f : EventFlag) (s : State) : (raiseWhen b f s).panel = s.panel := by
  cases b <;> rfl
@[simp] theorem raiseWhen_touch (b : Bool) (f : EventFlag) (s : State) : (raiseWhen b f s).touch = s.touch := by
  cases b <;> rfl
@[simp] theorem raiseWhen_lineIf (b : Bool) (f : EventFlag) (s : State) : (raiseWhen b f s).lineIf = s.lineIf := by
  cases b <;> rfl
@[simp] theorem raiseWhen_station (b : Bool) (f : EventFlag) (s : State) : (raiseWhen b f s).station = s.station := by
  cases b <;> rfl
@[simp] theorem raiseWhen_terminalReset (b : Bool) (f : EventFlag) (s : State) : (raiseWhen b f s).terminalReset = s.terminalReset := by
  cases b <;> rfl
@[simp] theorem raiseWhen_event (b : Bool) (f : EventFlag) (s : State) : (raiseWhen b f s).event = s.event := by
  cases b <;> rfl
@[simp] theorem raiseWhen_port_input (b : Bool) (f : EventFlag) (s : State) :
    (raiseWhen b f s).port.input = s.port.input := by cases b <;> rfl
@[simp] theorem raiseWhen_port_overflow (b : Bool) (f : EventFlag) (s : State) :
    (raiseWhen b f s).port.overflow = s.port.overflow := by cases b <;> rfl
@[simp] theorem raiseWhen_port_enables (b : Bool) (f : EventFlag) (s : State) :
    (raiseWhen b f s).port.enables = s.port.enables := by cases b <;> rfl
@[simp] theorem raiseWhen_port_select (b : Bool) (f : EventFlag) (s : State) :
    (raiseWhen b f s).port.select = s.port.select := by cases b <;> rfl
@[simp] theorem raiseWhen_port_data (b : Bool) (f : EventFlag) (s : State) :
    (raiseWhen b f s).port.data = s.port.data := by cases b <;> rfl
@[simp] theorem raiseWhen_chan (b : Bool) (f : EventFlag) (s : State) (ch : Channel) : (raiseWhen b f s).chan ch = s.chan ch := by
  cases b <;> cases ch <;> rfl

/-- A raised flag is set, and every other flag is as it was (R132). -/
theorem flagSet_raiseFlag (f g : EventFlag) (s : State) :
    flagSet g (raiseFlag f s) = (flagSet g s || decide (g = f)) := by
  cases f <;> cases g <;> simp [flagSet, raiseFlag, flagBit]

/-- `raiseWhen` sets its flag exactly when its condition holds. -/
theorem flagSet_raiseWhen (b : Bool) (f g : EventFlag) (s : State) :
    flagSet g (raiseWhen b f s) = (flagSet g s || (b && decide (g = f))) := by
  cases b <;> simp [raiseWhen, flagSet_raiseFlag]

end Sys2Proof.Machine
end

