-- ==== Sys2Proof/Laws/Ops.lean ====
section
/-! SUPPORT. What each shared operation leaves alone, and what it can do. -/

namespace Sys2Proof.Machine

/-! ### What each operation leaves alone -/

/-- Drawing a span changes the shadow image and the strike queue alone. -/
@[simp] theorem drawSpan_frame (h : Held) (s : State) :
    (drawSpan h s).pending = s.pending ∧ (drawSpan h s).lineChan = s.lineChan ∧
      (drawSpan h s).localChan = s.localChan ∧ (drawSpan h s).supervision = s.supervision ∧
      (drawSpan h s).sustain = s.sustain ∧ (drawSpan h s).tracker = s.tracker ∧ (drawSpan h s).panel = s.panel ∧
      (drawSpan h s).touch = s.touch ∧ (drawSpan h s).lineIf = s.lineIf ∧ (drawSpan h s).port = s.port ∧
      (drawSpan h s).station = s.station ∧ (drawSpan h s).terminalReset = s.terminalReset ∧
      (drawSpan h s).event = s.event := by
  unfold drawSpan; split <;> simp; split <;> simp

/-- The render of a span besides changes its channel. -/
@[simp] theorem renderSpan_frame (h : Held) (s : State) :
    (renderSpan h s).pending = s.pending ∧ (renderSpan h s).supervision = s.supervision ∧
      (renderSpan h s).sustain = s.sustain ∧ (renderSpan h s).tracker = s.tracker ∧
      (renderSpan h s).panel = s.panel ∧ (renderSpan h s).touch = s.touch ∧ (renderSpan h s).lineIf = s.lineIf ∧
      (renderSpan h s).port = s.port ∧ (renderSpan h s).station = s.station ∧
      (renderSpan h s).terminalReset = s.terminalReset ∧ (renderSpan h s).event = s.event := by
  simp [renderSpan]

/-- Likewise the render of the held span. -/
@[simp] theorem renderHeld_frame (s : State) :
    (renderHeld s).pending = s.pending ∧ (renderHeld s).supervision = s.supervision ∧
      (renderHeld s).sustain = s.sustain ∧ (renderHeld s).tracker = s.tracker ∧ (renderHeld s).panel = s.panel ∧
      (renderHeld s).touch = s.touch ∧ (renderHeld s).lineIf = s.lineIf ∧ (renderHeld s).port = s.port ∧
      (renderHeld s).station = s.station ∧ (renderHeld s).terminalReset = s.terminalReset ∧
      (renderHeld s).event = s.event := by
  unfold renderHeld; split <;> simp

/-- Abandoning a held span changes the engine alone. -/
@[simp] theorem abandonHeld_frame (ch : Channel) (s : State) :
    (abandonHeld ch s).pending = s.pending ∧ (abandonHeld ch s).lineChan = s.lineChan ∧
      (abandonHeld ch s).localChan = s.localChan ∧ (abandonHeld ch s).supervision = s.supervision ∧
      (abandonHeld ch s).strikes = s.strikes ∧ (abandonHeld ch s).sustain = s.sustain ∧
      (abandonHeld ch s).tracker = s.tracker ∧ (abandonHeld ch s).panel = s.panel ∧
      (abandonHeld ch s).touch = s.touch ∧ (abandonHeld ch s).lineIf = s.lineIf ∧ (abandonHeld ch s).port = s.port ∧
      (abandonHeld ch s).station = s.station ∧ (abandonHeld ch s).terminalReset = s.terminalReset ∧
      (abandonHeld ch s).event = s.event := by
  unfold abandonHeld; split <;> simp; split <;> simp

/-- A take changes the tracker alone. -/
@[simp] theorem takeRow_frame (s : State) :
    (takeRow s).pending = s.pending ∧ (takeRow s).engine = s.engine ∧ (takeRow s).lineChan = s.lineChan ∧
      (takeRow s).localChan = s.localChan ∧ (takeRow s).supervision = s.supervision ∧
      (takeRow s).strikes = s.strikes ∧ (takeRow s).sustain = s.sustain ∧ (takeRow s).panel = s.panel ∧
      (takeRow s).touch = s.touch ∧ (takeRow s).lineIf = s.lineIf ∧ (takeRow s).port = s.port ∧
      (takeRow s).station = s.station ∧ (takeRow s).terminalReset = s.terminalReset ∧
      (takeRow s).event = s.event := by
  simp only [takeRow]; split <;> (try split) <;> simp

/-- Activation changes the tracker alone. -/
@[simp] theorem activateScanner_frame (s : State) :
    (activateScanner s).pending = s.pending ∧ (activateScanner s).engine = s.engine ∧
      (activateScanner s).lineChan = s.lineChan ∧ (activateScanner s).localChan = s.localChan ∧
      (activateScanner s).supervision = s.supervision ∧ (activateScanner s).strikes = s.strikes ∧
      (activateScanner s).sustain = s.sustain ∧ (activateScanner s).panel = s.panel ∧
      (activateScanner s).touch = s.touch ∧ (activateScanner s).lineIf = s.lineIf ∧
      (activateScanner s).port = s.port ∧ (activateScanner s).station = s.station ∧
      (activateScanner s).terminalReset = s.terminalReset ∧ (activateScanner s).event = s.event := by
  unfold activateScanner; split <;> simp

/-- A restore step changes the strike queue and the tracker alone. -/
@[simp] theorem restoreStep_frame (s : State) :
    (restoreStep s).pending = s.pending ∧ (restoreStep s).engine = s.engine ∧ (restoreStep s).lineChan = s.lineChan ∧
      (restoreStep s).localChan = s.localChan ∧ (restoreStep s).supervision = s.supervision ∧
      (restoreStep s).sustain = s.sustain ∧ (restoreStep s).panel = s.panel ∧ (restoreStep s).touch = s.touch ∧
      (restoreStep s).lineIf = s.lineIf ∧ (restoreStep s).port = s.port ∧ (restoreStep s).station = s.station ∧
      (restoreStep s).terminalReset = s.terminalReset ∧ (restoreStep s).event = s.event := by
  unfold restoreStep; split <;> simp

/-- A sustain start changes the generator, the panel and a flag alone. -/
@[simp] theorem startSustain_frame (s : State) :
    (startSustain s).pending = s.pending ∧ (startSustain s).engine = s.engine ∧
      (startSustain s).lineChan = s.lineChan ∧ (startSustain s).localChan = s.localChan ∧
      (startSustain s).supervision = s.supervision ∧ (startSustain s).strikes = s.strikes ∧
      (startSustain s).tracker = s.tracker ∧ (startSustain s).touch = s.touch ∧ (startSustain s).lineIf = s.lineIf ∧
      (startSustain s).station = s.station ∧ (startSustain s).terminalReset = s.terminalReset ∧
      (startSustain s).event = s.event := by
  simp [startSustain]

/-- Likewise a sustain start that waits for its conditions. -/
@[simp] theorem startWhenReady_frame (s : State) :
    (startWhenReady s).pending = s.pending ∧ (startWhenReady s).engine = s.engine ∧
      (startWhenReady s).lineChan = s.lineChan ∧ (startWhenReady s).localChan = s.localChan ∧
      (startWhenReady s).supervision = s.supervision ∧ (startWhenReady s).strikes = s.strikes ∧
      (startWhenReady s).tracker = s.tracker ∧ (startWhenReady s).touch = s.touch ∧
      (startWhenReady s).lineIf = s.lineIf ∧ (startWhenReady s).station = s.station ∧
      (startWhenReady s).terminalReset = s.terminalReset ∧ (startWhenReady s).event = s.event := by
  unfold startWhenReady; split <;> simp

/-- A loss keeps the channels, the engine and the port. -/
@[simp] theorem enterDark_frame (s : State) :
    (enterDark s).pending = s.pending ∧ (enterDark s).engine = s.engine ∧ (enterDark s).lineChan = s.lineChan ∧
      (enterDark s).localChan = s.localChan ∧ (enterDark s).supervision = s.supervision ∧
      (enterDark s).touch = s.touch ∧ (enterDark s).lineIf = s.lineIf ∧ (enterDark s).port = s.port ∧
      (enterDark s).station = s.station ∧ (enterDark s).terminalReset = s.terminalReset ∧
      (enterDark s).event = s.event := by
  simp [enterDark]

/-- What a loss by droop or panel-off leaves alone. -/
@[simp] theorem lose_frame (s : State) :
    (lose s).pending = s.pending ∧ (lose s).supervision = s.supervision ∧ (lose s).touch = s.touch ∧
      (lose s).lineIf = s.lineIf ∧ (lose s).station = s.station ∧ (lose s).terminalReset = s.terminalReset ∧
      (lose s).event = s.event := by
  unfold lose; split <;> simp

/-- A supply below droop leaves alone what a loss does. -/
@[simp] theorem supplyBelow_frame (s : State) :
    (supplyBelow s).pending = s.pending ∧ (supplyBelow s).supervision = s.supervision ∧
      (supplyBelow s).touch = s.touch ∧ (supplyBelow s).lineIf = s.lineIf ∧ (supplyBelow s).station = s.station ∧
      (supplyBelow s).terminalReset = s.terminalReset ∧ (supplyBelow s).event = s.event := by
  unfold supplyBelow; split <;> simp

/-- A supply above recover changes the monitor alone. -/
@[simp] theorem supplyAbove_frame (s : State) :
    (supplyAbove s).pending = s.pending ∧ (supplyAbove s).engine = s.engine ∧ (supplyAbove s).lineChan = s.lineChan ∧
      (supplyAbove s).localChan = s.localChan ∧ (supplyAbove s).supervision = s.supervision ∧
      (supplyAbove s).strikes = s.strikes ∧ (supplyAbove s).tracker = s.tracker ∧ (supplyAbove s).panel = s.panel ∧
      (supplyAbove s).touch = s.touch ∧ (supplyAbove s).lineIf = s.lineIf ∧ (supplyAbove s).port = s.port ∧
      (supplyAbove s).station = s.station ∧ (supplyAbove s).terminalReset = s.terminalReset ∧
      (supplyAbove s).event = s.event := by
  unfold supplyAbove; split <;> simp

/-- What the supply monitor leaves alone. -/
@[simp] theorem compareSupply_frame (s : State) :
    (compareSupply s).pending = s.pending ∧ (compareSupply s).supervision = s.supervision ∧
      (compareSupply s).touch = s.touch ∧ (compareSupply s).lineIf = s.lineIf ∧
      (compareSupply s).station = s.station ∧ (compareSupply s).terminalReset = s.terminalReset ∧
      (compareSupply s).event = s.event := by
  unfold compareSupply; split <;> (try split) <;> simp

/-- Completing an order changes its channel alone. -/
@[simp] theorem completeOrder_frame (ch : Channel) (s : State) :
    (completeOrder ch s).pending = s.pending ∧ (completeOrder ch s).engine = s.engine ∧
      (completeOrder ch s).supervision = s.supervision ∧ (completeOrder ch s).strikes = s.strikes ∧
      (completeOrder ch s).sustain = s.sustain ∧ (completeOrder ch s).tracker = s.tracker ∧
      (completeOrder ch s).panel = s.panel ∧ (completeOrder ch s).touch = s.touch ∧
      (completeOrder ch s).lineIf = s.lineIf ∧ (completeOrder ch s).port = s.port ∧
      (completeOrder ch s).station = s.station ∧ (completeOrder ch s).terminalReset = s.terminalReset ∧
      (completeOrder ch s).event = s.event := by
  simp [completeOrder]

/-- A record that joins the local input queue changes the port alone. -/
@[simp] theorem joinInput_frame (r : InputRecord) (s : State) :
    (joinInput r s).pending = s.pending ∧ (joinInput r s).engine = s.engine ∧ (joinInput r s).lineChan = s.lineChan ∧
      (joinInput r s).localChan = s.localChan ∧ (joinInput r s).supervision = s.supervision ∧
      (joinInput r s).strikes = s.strikes ∧ (joinInput r s).sustain = s.sustain ∧
      (joinInput r s).tracker = s.tracker ∧ (joinInput r s).panel = s.panel ∧ (joinInput r s).touch = s.touch ∧
      (joinInput r s).lineIf = s.lineIf ∧ (joinInput r s).station = s.station ∧
      (joinInput r s).terminalReset = s.terminalReset ∧ (joinInput r s).event = s.event := by
  simp [joinInput]

/-- A record that joins the upstream queue changes the line interface alone. -/
@[simp] theorem joinUpstream_frame (r : InputRecord) (s : State) :
    (joinUpstream r s).pending = s.pending ∧ (joinUpstream r s).engine = s.engine ∧
      (joinUpstream r s).lineChan = s.lineChan ∧ (joinUpstream r s).localChan = s.localChan ∧
      (joinUpstream r s).supervision = s.supervision ∧ (joinUpstream r s).strikes = s.strikes ∧
      (joinUpstream r s).sustain = s.sustain ∧ (joinUpstream r s).tracker = s.tracker ∧
      (joinUpstream r s).panel = s.panel ∧ (joinUpstream r s).touch = s.touch ∧ (joinUpstream r s).port = s.port ∧
      (joinUpstream r s).station = s.station ∧ (joinUpstream r s).terminalReset = s.terminalReset ∧
      (joinUpstream r s).event = s.event := by
  simp [joinUpstream]

/-- A halt changes its channel and a flag alone. -/
@[simp] theorem haltChannel_frame (ch : Channel) (cause : HaltCause) (s : State) :
    (haltChannel ch cause s).pending = s.pending ∧ (haltChannel ch cause s).engine = s.engine ∧
      (haltChannel ch cause s).supervision = s.supervision ∧ (haltChannel ch cause s).strikes = s.strikes ∧
      (haltChannel ch cause s).sustain = s.sustain ∧ (haltChannel ch cause s).tracker = s.tracker ∧
      (haltChannel ch cause s).panel = s.panel ∧ (haltChannel ch cause s).touch = s.touch ∧
      (haltChannel ch cause s).lineIf = s.lineIf ∧ (haltChannel ch cause s).station = s.station ∧
      (haltChannel ch cause s).terminalReset = s.terminalReset ∧ (haltChannel ch cause s).event = s.event := by
  simp [haltChannel]

/-- A decoder changes its channel and a flag alone. -/
@[simp] theorem decodeStep_frame (ch : Channel) (s : State) :
    (decodeStep ch s).pending = s.pending ∧ (decodeStep ch s).engine = s.engine ∧
      (decodeStep ch s).supervision = s.supervision ∧ (decodeStep ch s).strikes = s.strikes ∧
      (decodeStep ch s).sustain = s.sustain ∧ (decodeStep ch s).tracker = s.tracker ∧
      (decodeStep ch s).panel = s.panel ∧ (decodeStep ch s).touch = s.touch ∧ (decodeStep ch s).lineIf = s.lineIf ∧
      (decodeStep ch s).station = s.station ∧ (decodeStep ch s).terminalReset = s.terminalReset ∧
      (decodeStep ch s).event = s.event := by
  unfold decodeStep; split <;> simp

/-- A dropped row changes its channel alone. -/
@[simp] theorem droppedRowStep_frame (ch : Channel) (s : State) :
    (droppedRowStep ch s).pending = s.pending ∧ (droppedRowStep ch s).engine = s.engine ∧
      (droppedRowStep ch s).supervision = s.supervision ∧ (droppedRowStep ch s).strikes = s.strikes ∧
      (droppedRowStep ch s).sustain = s.sustain ∧ (droppedRowStep ch s).tracker = s.tracker ∧
      (droppedRowStep ch s).panel = s.panel ∧ (droppedRowStep ch s).touch = s.touch ∧
      (droppedRowStep ch s).lineIf = s.lineIf ∧ (droppedRowStep ch s).port = s.port ∧
      (droppedRowStep ch s).station = s.station ∧ (droppedRowStep ch s).terminalReset = s.terminalReset ∧
      (droppedRowStep ch s).event = s.event := by
  simp [droppedRowStep]

/-- The end of takeover changes the supervision state and a flag alone. -/
@[simp] theorem giveEffect_frame (s : State) :
    (giveEffect s).pending = s.pending ∧ (giveEffect s).engine = s.engine ∧ (giveEffect s).lineChan = s.lineChan ∧
      (giveEffect s).localChan = s.localChan ∧ (giveEffect s).strikes = s.strikes ∧
      (giveEffect s).sustain = s.sustain ∧ (giveEffect s).tracker = s.tracker ∧ (giveEffect s).panel = s.panel ∧
      (giveEffect s).touch = s.touch ∧ (giveEffect s).lineIf = s.lineIf ∧ (giveEffect s).station = s.station ∧
      (giveEffect s).terminalReset = s.terminalReset ∧ (giveEffect s).event = s.event := by
  unfold giveEffect; split <;> simp

/-- A TAKE changes the supervision state, the local channel and a flag alone. -/
@[simp] theorem takeEffect_frame (s : State) :
    (takeEffect s).pending = s.pending ∧ (takeEffect s).engine = s.engine ∧ (takeEffect s).lineChan = s.lineChan ∧
      (takeEffect s).strikes = s.strikes ∧ (takeEffect s).sustain = s.sustain ∧ (takeEffect s).tracker = s.tracker ∧
      (takeEffect s).panel = s.panel ∧ (takeEffect s).touch = s.touch ∧ (takeEffect s).lineIf = s.lineIf ∧
      (takeEffect s).station = s.station ∧ (takeEffect s).terminalReset = s.terminalReset ∧
      (takeEffect s).event = s.event := by
  unfold takeEffect; split <;> simp

/-- A press record that meets the upstream queue changes the line interface alone. -/
@[simp] theorem pressUpstream_frame (c : TouchCell) (s : State) :
    (pressUpstream c s).pending = s.pending ∧ (pressUpstream c s).engine = s.engine ∧
      (pressUpstream c s).lineChan = s.lineChan ∧ (pressUpstream c s).localChan = s.localChan ∧
      (pressUpstream c s).supervision = s.supervision ∧ (pressUpstream c s).strikes = s.strikes ∧
      (pressUpstream c s).sustain = s.sustain ∧ (pressUpstream c s).tracker = s.tracker ∧
      (pressUpstream c s).panel = s.panel ∧ (pressUpstream c s).touch = s.touch ∧ (pressUpstream c s).port = s.port ∧
      (pressUpstream c s).station = s.station ∧ (pressUpstream c s).terminalReset = s.terminalReset ∧
      (pressUpstream c s).event = s.event := by
  unfold pressUpstream; split <;> simp

/-- A press record that meets the local input queue changes the port alone. -/
@[simp] theorem pressLocal_frame (c : TouchCell) (s : State) :
    (pressLocal c s).pending = s.pending ∧ (pressLocal c s).engine = s.engine ∧
      (pressLocal c s).lineChan = s.lineChan ∧ (pressLocal c s).localChan = s.localChan ∧
      (pressLocal c s).supervision = s.supervision ∧ (pressLocal c s).strikes = s.strikes ∧
      (pressLocal c s).sustain = s.sustain ∧ (pressLocal c s).tracker = s.tracker ∧
      (pressLocal c s).panel = s.panel ∧ (pressLocal c s).touch = s.touch ∧ (pressLocal c s).lineIf = s.lineIf ∧
      (pressLocal c s).station = s.station ∧ (pressLocal c s).terminalReset = s.terminalReset ∧
      (pressLocal c s).event = s.event := by
  unfold pressLocal; split <;> simp

/-- A press record changes the two input queues alone. -/
@[simp] theorem sendPress_frame (c : TouchCell) (s : State) :
    (sendPress c s).pending = s.pending ∧ (sendPress c s).engine = s.engine ∧ (sendPress c s).lineChan = s.lineChan ∧
      (sendPress c s).localChan = s.localChan ∧ (sendPress c s).supervision = s.supervision ∧
      (sendPress c s).strikes = s.strikes ∧ (sendPress c s).sustain = s.sustain ∧
      (sendPress c s).tracker = s.tracker ∧ (sendPress c s).panel = s.panel ∧ (sendPress c s).touch = s.touch ∧
      (sendPress c s).station = s.station ∧ (sendPress c s).terminalReset = s.terminalReset ∧
      (sendPress c s).event = s.event := by
  unfold sendPress; split <;> simp

/-! ### What each operation can do -/

/-- What drawing a span does (R10, R11, R12, R13): nothing when its clipped box is empty; else the shadow set of its
row-group is replaced, and for a row that is not stale the differences are handed over. -/
theorem drawSpan_cases (h : Held) (s : State) :
    (clippedBox s h.channel h.span = 0 ∧ drawSpan h s = s) ∨
    (clippedBox s h.channel h.span ≠ 0 ∧
      (drawSpan h s).engine =
        { s.engine with
          shadow := sparseSet 0 s.engine.shadow (rowKey h.span.row h.span.group) (newCells s h.channel h.span) } ∧
      ((isStale s h.span.row = true ∧ (drawSpan h s).strikes = s.strikes) ∨
        (isStale s h.span.row = false ∧
          (drawSpan h s).strikes =
            { items :=
                handPair h.span.row h.span.group
                  (shadowAt s h.span.row h.span.group &&& ~~~newCells s h.channel h.span)
                  (newCells s h.channel h.span &&& ~~~shadowAt s h.span.row h.span.group) s.strikes.items
              turn := .engine }))) := by
  unfold drawSpan
  by_cases hb : clippedBox s h.channel h.span = 0
  · exact .inl ⟨hb, if_pos hb⟩
  · rw [if_neg hb]
    dsimp only
    refine .inr ⟨hb, ?_⟩
    split
    · exact ⟨rfl, .inl ⟨‹_›, rfl⟩⟩
    · exact ⟨rfl, .inr ⟨by simp_all, rfl⟩⟩

@[simp] theorem drawSpan_chan (h : Held) (s : State) (ch : Channel) : (drawSpan h s).chan ch = s.chan ch := by
  cases ch <;> simp

/-- The render of a span: the queue that its drawing gives, its shadow image, the engine FREE. -/
theorem renderSpan_engine (h : Held) (s : State) :
    (renderSpan h s).engine = { (drawSpan h s).engine with held := none } := by
  simp [renderSpan]

theorem renderSpan_strikes (h : Held) (s : State) : (renderSpan h s).strikes = (drawSpan h s).strikes := by
  simp [renderSpan]

/-- The render of a span moves its channel's order on, and leaves the other channel alone. -/
theorem renderSpan_chan (h : Held) (s : State) :
    (renderSpan h s).chan h.channel = spanRendered (s.chan h.channel) ∧
      ∀ ch, ch ≠ h.channel → (renderSpan h s).chan ch = s.chan ch := by
  refine ⟨by simp [renderSpan, State.withChan_chan], fun ch hne => ?_⟩
  simp [renderSpan, State.withChan_chan_ne _ _ hne]

/-- What handing an item over does (R14, R62, R64): nothing for an empty set, the newest item of the same kind, row and
group widened, or the item appended. -/
theorem handOver_cases (kind : StrikeKind) (y : Coord) (g : Group) (cells : Cells) (items : List StrikeItem) :
    (cells = 0 ∧ handOver kind y g cells items = items) ∨
    (cells ≠ 0 ∧ ∃ held, items.getLast? = some (.strike kind y g held) ∧
      handOver kind y g cells items = items.dropLast ++ [.strike kind y g (held ||| cells)]) ∨
    (cells ≠ 0 ∧ (∀ held, items.getLast? ≠ some (.strike kind y g held)) ∧
      handOver kind y g cells items = items ++ [.strike kind y g cells]) := by
  unfold handOver
  by_cases hc : cells = 0
  · exact .inl ⟨hc, if_pos hc⟩
  · rw [if_neg hc]
    cases hl : items.getLast? with
    | none => exact .inr (.inr ⟨hc, by simp, rfl⟩)
    | some item =>
      cases item with
      | bulk => exact .inr (.inr ⟨hc, by simp, rfl⟩)
      | strike k r h held =>
        by_cases same : k = kind ∧ r = y ∧ h = g
        · obtain ⟨rfl, rfl, rfl⟩ := same
          exact .inr (.inl ⟨hc, held, rfl, by simp⟩)
        · refine .inr (.inr ⟨hc, fun held' e => same ?_, if_neg same⟩)
          simp only [Option.some.injEq, StrikeItem.strike.injEq] at e
          exact ⟨e.1, e.2.1, e.2.2.1⟩

/-- What a take does (R92): nothing unless the panel is LIVE and an ACTIVE scanner has no current row; then the scanner
becomes IDLE, or the row it chooses becomes its current one and COHERENT. -/
theorem takeRow_cases (s : State) :
    let c := s.tracker.scanner
    let takes := s.sustain.panelState = .live ∧ c.active = true ∧ c.current = none
    (¬takes ∧ takeRow s = s) ∨
    (takes ∧ rowToTake s.tracker.stale c.sweep = none ∧
      takeRow s = s.withTracker { s.tracker with scanner := { c with active := false } }) ∨
    (takes ∧ ∃ y kind, rowToTake s.tracker.stale c.sweep = some (y, kind) ∧
      takeRow s = s.withTracker
        { stale := sparseSet .coherent s.tracker.stale y .coherent
          scanner := { c with current := some { row := coord y, kind := kind, next := 0 } } }) := by
  by_cases hp : s.sustain.panelState = .live ∧ s.tracker.scanner.active = true ∧ s.tracker.scanner.current = none
  · cases ht : rowToTake s.tracker.stale s.tracker.scanner.sweep with
    | none => exact .inr (.inl ⟨hp, ht, by simp only [takeRow, if_pos hp, ht]⟩)
    | some p => exact .inr (.inr ⟨hp, p.1, p.2, ht, by simp only [takeRow, if_pos hp, ht]⟩)
  · exact .inl ⟨hp, by simp only [takeRow, if_neg hp]⟩

/-- The chosen row is a listed one. -/
theorem rowToTake_mem (stale : List (Nat × StaleKind)) (sweep : Nat) (p : Nat × StaleKind)
    (h : rowToTake stale sweep = some p) : p ∈ stale := by
  unfold rowToTake at h
  split at h
  · cases h
    exact List.mem_of_find?_eq_some ‹_›
  · exact List.mem_of_mem_head? h

/-- A restore step with a current row, but for the take after group 31 (R93). -/
theorem restoreStep_some (s : State) (cur : Current) (h : s.tracker.scanner.current = some cur) :
    restoreStep s =
      takeRow ((s.withStrikes
        { items := restoreItems cur (shadowAt s cur.row cur.next) s.strikes.items, turn := .scanner }).withTracker
          { s.tracker with scanner := afterStep s.tracker.scanner cur }) := by
  simp [restoreStep, h]

/-- What a loss does (R83): nothing on a DARK panel; else PANEL is raised, the panel is DARK, and a held span renders. -/
theorem lose_cases (s : State) :
    (s.sustain.panelState = .dark ∧ lose s = s) ∨
    (s.sustain.panelState ≠ .dark ∧ lose s = renderHeld (raiseFlag .panel (enterDark s))) := by
  by_cases h : s.sustain.panelState = .dark
  · exact .inl ⟨h, by simp [lose, h]⟩
  · exact .inr ⟨h, by simp [lose, h]⟩

/-- What a decoder does (R50, R53): it waits, halts its channel, or carries out or starts an order. -/
theorem decodeStep_cases (ch : Channel) (s : State) :
    (reached ch (s.chan ch) = .waits ∧ decodeStep ch s = s) ∨
    (∃ cause, reached ch (s.chan ch) = .malformed cause ∧ decodeStep ch s = haltChannel ch cause s) ∨
    (∃ kind head args, reached ch (s.chan ch) = .order kind head args ∧
      decodeStep ch s = s.withChan ch (decoded ch s.supervision.area kind head args (s.chan ch))) := by
  cases h : reached ch (s.chan ch) with
  | waits => exact .inl ⟨rfl, by simp [decodeStep, h]⟩
  | malformed cause => exact .inr (.inl ⟨cause, rfl, by simp [decodeStep, h]⟩)
  | order kind head args => exact .inr (.inr ⟨kind, head, args, rfl, by simp [decodeStep, h]⟩)

/-- What a grant does (R6, R7): the arbiter memory names the channel, and its unit is carried out or its span placed. -/
theorem grantTo_cases (ch : Channel) (s : State) :
    let t := s.withEngine { s.engine with arbiter := ch }
    (unitReady t ch = true ∧ grantTo ch s = carryUnit ch t) ∨
    (unitReady t ch = false ∧ spanReady t ch = none ∧ grantTo ch s = t) ∨
    (unitReady t ch = false ∧ ∃ p c, spanReady t ch = some (p, c) ∧
      grantTo ch s = placeSpan { channel := ch, span := p } (t.withChan ch c)) := by
  intro t
  cases hu : unitReady t ch
  · cases hp : spanReady t ch with
    | none => exact .inr (.inl ⟨rfl, rfl, by simp only [grantTo]; simp [t] at hu hp; simp [hu, hp, t]⟩)
    | some q => exact .inr (.inr ⟨rfl, q.1, q.2, rfl, by simp only [grantTo]; simp [t] at hu hp; simp [hu, hp, t]⟩)
  · exact .inl ⟨rfl, by simp only [grantTo]; simp [t] at hu; simp [hu, t]⟩

/-- A placed span renders when the render condition holds, and is held otherwise (R7). -/
theorem placeSpan_cases (h : Held) (s : State) :
    (renderCondition s h = true ∧ placeSpan h s = renderSpan h s) ∨
    (renderCondition s h = false ∧ placeSpan h s = s.withEngine { s.engine with held := some h }) := by
  cases hr : renderCondition s h
  · exact .inr ⟨rfl, by simp [placeSpan, hr]⟩
  · exact .inl ⟨rfl, by simp [placeSpan, hr]⟩

end Sys2Proof.Machine
end

