-- ==== Sys2Proof/Laws/Event.lean ====
section
/-! SUPPORT. Events: what is at rest stays as it is, what every step keeps an event keeps, and what the end of an event
changes. -/

namespace Sys2Proof.Machine

/-- A step chosen as due is due. -/
theorem dueAmong_isDue (steps : List Internal) (s : State) (i : Internal) (h : dueAmong steps s = some i) :
    isDue i s = true := by
  have := List.find?_some h
  simpa using this

/-- A step chosen as due is due. -/
theorem dueStep_isDue (s : State) (i : Internal) (h : dueStep s = some i) : isDue i s = true :=
  dueAmong_isDue internalOrder s i h

/-- A step chosen from a list is one of it. -/
theorem dueAmong_mem (steps : List Internal) (s : State) (i : Internal) (h : dueAmong steps s = some i) : i ∈ steps :=
  List.mem_of_find?_eq_some h

/-- With no step due among them nothing is settled. -/
theorem settleAmong_of_rest (steps : List Internal) (fuel : Nat) (s : State) (h : dueAmong steps s = none) :
    settleAmong steps fuel s = s := by
  cases fuel with
  | zero => rfl
  | succ n => simp only [settleAmong, h]

/-- With no step due nothing is settled. -/
theorem settle_of_rest (fuel : Nat) (s : State) (h : dueStep s = none) : settle fuel s = s :=
  settleAmong_of_rest internalOrder fuel s h

/-- What every due step of a list keeps, settling among them keeps. -/
theorem settleAmong_induction (steps : List Internal) (P : State → Prop)
    (step : ∀ s i, P s → i ∈ steps → isDue i s = true → P (runInternal i s)) :
    ∀ fuel s, P s → P (settleAmong steps fuel s)
  | 0, _, h => h
  | fuel + 1, s, h => by
    unfold settleAmong
    split
    · exact h
    · rename_i i due
      exact settleAmong_induction steps P step fuel _
        (step s i h (dueAmong_mem _ _ _ due) (dueAmong_isDue _ _ _ due))

/-- What every due step keeps, settling keeps. -/
theorem settle_induction (P : State → Prop)
    (step : ∀ s i, P s → i ∈ internalOrder → isDue i s = true → P (runInternal i s)) (fuel : Nat) (s : State) (h : P s) :
    P (settle fuel s) :=
  settleAmong_induction internalOrder P step fuel s h

/-- What every due step but a local grant keeps holds at the TAKE that meets a RESUME, and there takeover is in force. -/
theorem untilTake_induction (P : State → Prop)
    (step : ∀ s i, P s → i ∈ noLocalGrant → isDue i s = true → P (runInternal i s)) :
    ∀ fuel s t, P s → untilTake fuel s = some t → P t ∧ t.supervision.takeover = true
  | 0, _, _, _, e => by cases e
  | fuel + 1, s, t, h, e => by
    unfold untilTake at e
    split at e
    · cases e
    · rename_i i due
      have kept := step s i h (dueAmong_mem _ _ _ due) (dueAmong_isDue _ _ _ due)
      dsimp only at e
      split at e
      · cases e
        exact ⟨kept, ‹_›⟩
      · exact untilTake_induction P step fuel _ t kept e

/-- No step is due exactly when none can be made. -/
theorem dueStep_none (s : State) :
    dueStep s = none ↔
      decodeDue .lineCh s = false ∧ decodeDue .localCh s = false ∧ droppedRowDue .lineCh s = false ∧
        droppedRowDue .localCh s = false ∧ renderDue s = false ∧ grantee s = none ∧ restoreDue s = false := by
  simp [dueStep, dueAmong, internalOrder, isDue]

/-- The end of an event: its flags are raised, and nothing else but the event itself changes. -/
@[simp] theorem endEvent_frame (s : State) :
    (endEvent s).pending = s.pending ∧ (endEvent s).engine = s.engine ∧ (endEvent s).lineChan = s.lineChan ∧
      (endEvent s).localChan = s.localChan ∧ (endEvent s).supervision = s.supervision ∧
      (endEvent s).strikes = s.strikes ∧ (endEvent s).sustain = s.sustain ∧ (endEvent s).tracker = s.tracker ∧
      (endEvent s).panel = s.panel ∧ (endEvent s).touch = s.touch ∧ (endEvent s).lineIf = s.lineIf ∧
      (endEvent s).station = s.station ∧ (endEvent s).terminalReset = s.terminalReset ∧
      (endEvent s).port.input = s.port.input ∧ (endEvent s).port.overflow = s.port.overflow ∧
      (endEvent s).port.enables = s.port.enables ∧ (endEvent s).port.select = s.port.select ∧
      (endEvent s).port.data = s.port.data := by
  unfold endEvent
  split <;> simp

@[simp] theorem endEvent_event (s : State) : (endEvent s).event = none := by
  unfold endEvent
  split
  · assumption
  · rfl

/-- The flags an event's end raises (R60, R74, R132). -/
theorem endEvent_flags (s : State) (b : Before) (h : s.event = some b) (f : EventFlag) :
    flagSet f (endEvent s) =
      (flagSet f s || (!b.idle && chanIdle s.localChan && decide (f = .drained)) ||
        (!b.roomy && decide (32 ≤ fifoFree s .localCh) && decide (f = .space)) ||
        (!b.settled && isSettled s && decide (f = .settled))) := by
  have port : ∀ t : State, flagSet f (t.withEvent none) = flagSet f t := fun _ => rfl
  simp only [endEvent, h, port, flagSet_raiseWhen, observe]

/-- The event closes when no step is due and it has not just come to a RESUME, and stays in progress otherwise. -/
theorem closeEvent_cases (s : State) :
    (((dueStep s).isSome = true ∨ resumeOpen s = true) ∧ closeEvent s = s) ∨
      (dueStep s = none ∧ resumeOpen s = false ∧ closeEvent s = endEvent s) := by
  cases h : dueStep s with
  | some i => exact .inl ⟨.inl rfl, by simp [closeEvent, h]⟩
  | none =>
    cases r : resumeOpen s with
    | true => exact .inl ⟨.inr rfl, by simp [closeEvent, h, r]⟩
    | false => exact .inr ⟨rfl, rfl, by simp [closeEvent, h, r]⟩

/-- Closing an event changes flags and the event alone. -/
@[simp] theorem closeEvent_frame (s : State) :
    (closeEvent s).pending = s.pending ∧ (closeEvent s).engine = s.engine ∧ (closeEvent s).lineChan = s.lineChan ∧
      (closeEvent s).localChan = s.localChan ∧ (closeEvent s).supervision = s.supervision ∧
      (closeEvent s).strikes = s.strikes ∧ (closeEvent s).sustain = s.sustain ∧ (closeEvent s).tracker = s.tracker ∧
      (closeEvent s).panel = s.panel ∧ (closeEvent s).touch = s.touch ∧ (closeEvent s).lineIf = s.lineIf ∧
      (closeEvent s).station = s.station ∧ (closeEvent s).terminalReset = s.terminalReset ∧
      (closeEvent s).port.input = s.port.input ∧ (closeEvent s).port.overflow = s.port.overflow ∧
      (closeEvent s).port.enables = s.port.enables ∧ (closeEvent s).port.select = s.port.select ∧
      (closeEvent s).port.data = s.port.data := by
  rcases closeEvent_cases s with ⟨-, h⟩ | ⟨-, -, h⟩ <;> simp [h]

/-- What an event has come to changes nothing else. -/
@[simp] theorem openEvent_frame (o : Opening) (s : State) :
    (openEvent o s).pending = s.pending ∧ (openEvent o s).engine = s.engine ∧ (openEvent o s).lineChan = s.lineChan ∧
      (openEvent o s).localChan = s.localChan ∧ (openEvent o s).supervision = s.supervision ∧
      (openEvent o s).strikes = s.strikes ∧ (openEvent o s).sustain = s.sustain ∧ (openEvent o s).tracker = s.tracker ∧
      (openEvent o s).panel = s.panel ∧ (openEvent o s).touch = s.touch ∧ (openEvent o s).lineIf = s.lineIf ∧
      (openEvent o s).port = s.port ∧ (openEvent o s).station = s.station ∧
      (openEvent o s).terminalReset = s.terminalReset := by
  refine ⟨?_, ?_, ?_, ?_, ?_, ?_, ?_, ?_, ?_, ?_, ?_, ?_, ?_, ?_⟩ <;> rfl

/-- Places that become free change nothing but what the event has come to. -/
theorem freePlaces_cases (wasFull : Bool) (s : State) :
    freePlaces wasFull s = s ∨ freePlaces wasFull s = openEvent .freed s := by
  cases wasFull
  · exact .inl rfl
  · exact .inr rfl

/-- The beginning of an event notes what held before, or goes on past what it has come to, and changes nothing else. -/
theorem beginEvent_eq (s : State) :
    beginEvent s = s.withEvent (some { s.event.getD (observe s) with opening := .shut }) := by
  cases h : s.event with
  | none => simp [beginEvent, h, observe]
  | some b => simp [beginEvent, goOn, openEvent, h]

/-- An event that has begun has come to nothing of that kind. -/
@[simp] theorem opening_beginEvent (s : State) : opening (beginEvent s) = .shut := by
  rw [beginEvent_eq]
  rfl

/-- Going on changes nothing where the event has come to nothing of that kind. -/
theorem goOn_of_shut (s : State) (h : opening s = .shut) : goOn s = s := by
  have same : (s.event.map fun b => { b with opening := .shut }) = s.event := by
    cases e : s.event with
    | none => rfl
    | some b =>
      have mark : b.opening = .shut := by simpa only [opening, e] using h
      cases b
      cases mark
      rfl
  unfold goOn openEvent
  rw [same]
  rfl

/-- At rest no event has come to anything. -/
@[simp] theorem opening_of_atRest (s : State) (h : AtRest s) : opening s = .shut := by
  simp only [opening, h.1]

/-- At rest no RESUME waits for a TAKE. -/
@[simp] theorem resumeOpen_of_atRest (s : State) (h : AtRest s) : resumeOpen s = false := by
  rw [resumeOpen, opening_of_atRest s h]
  rfl

/-- At rest no freed place waits for a press. -/
@[simp] theorem placesOpen_of_atRest (s : State) (h : AtRest s) : placesOpen s = false := by
  rw [placesOpen, opening_of_atRest s h]
  rfl

/-- A state at rest has no event to finish. -/
theorem finish_of_atRest (s : State) (h : AtRest s) : finish s = s := by
  unfold finish
  rw [goOn_of_shut s (opening_of_atRest s h), settle_of_rest _ _ h.2]
  rcases closeEvent_cases s with ⟨-, hc⟩ | ⟨-, -, hc⟩
  · exact hc
  · rw [hc]
    simp only [endEvent, h.1]

/-- What an event from outside does: it begins when the event before is finished, or, where that event has come to a RESUME and
a TAKE is granted at this one, it goes to that grant with nothing granted to the local channel (R108). -/
theorem atEvent_cases (f : State → State) (s : State) :
    atEvent f s = closeEvent (f (beginEvent (finish s))) ∨
      (resumeOpen s = true ∧
        ∃ t, untilTake Config.eventFuel (f (beginEvent (settleAmong localAtOnce Config.eventFuel (goOn s)))) = some t ∧
          atEvent f s = closeEvent t) := by
  cases h : takeAtResume f s with
  | none => exact .inl (by simp only [atEvent, h])
  | some t =>
    unfold takeAtResume at h
    split at h
    · refine .inr ⟨‹_›, t, h, ?_⟩
      have taken : takeAtResume f s = some t := by
        unfold takeAtResume
        rw [if_pos ‹_›]
        exact h
      simp only [atEvent, taken]
    · cases h

/-- Where the event before has come to no RESUME, it is finished first. -/
theorem atEvent_of_closed (f : State → State) (s : State) (h : resumeOpen s = false) :
    atEvent f s = closeEvent (f (beginEvent (finish s))) := by
  rcases atEvent_cases f s with e | ⟨open', -⟩
  · exact e
  · rw [h] at open'
    cases open'

/-- An event from outside that comes at rest is its direct effect, closed when no step is then due. -/
theorem atEvent_of_atRest (f : State → State) (s : State) (h : AtRest s) :
    atEvent f s = closeEvent (f (s.withEvent (some (observe s)))) := by
  rw [atEvent_of_closed f s (resumeOpen_of_atRest s h), finish_of_atRest s h, beginEvent_eq, h.1]
  rfl

/-- What the event of a press does: directly behind an event that has freed places its direct effect comes first, and elsewhere
it is as any event's. -/
theorem atPress_cases (f : State → State) (s : State) :
    (placesOpen s = true ∧ atPress f s = closeEvent (f (beginEvent s))) ∨
      (placesOpen s = false ∧ atPress f s = atEvent f s) := by
  cases h : placesOpen s with
  | true => exact .inl ⟨rfl, by simp [atPress, h]⟩
  | false => exact .inr ⟨rfl, by simp [atPress, h]⟩

/-- The event of a press that comes at rest is as any event's. -/
theorem atPress_of_atRest (f : State → State) (s : State) (h : AtRest s) : atPress f s = atEvent f s := by
  rcases atPress_cases f s with ⟨e, -⟩ | ⟨-, e⟩
  · rw [placesOpen_of_atRest s h] at e
    cases e
  · exact e

/-- A step that is not due changes nothing. -/
@[simp] theorem stepWhen_false (f : State → State) (s : State) : stepWhen false f s = s := rfl

/-- A step that is due is made within the event in progress. -/
@[simp] theorem stepWhen_true (f : State → State) (s : State) : stepWhen true f s = withinEvent f s := rfl

/-- What every due step, every end of an event and every going on keep, finishing the event keeps. -/
theorem finish_induction (P : State → Prop) (next : ∀ s, P s → P (goOn s))
    (step : ∀ s i, P s → isDue i s = true → P (runInternal i s)) (close : ∀ s, P s → P (endEvent s)) (s : State)
    (h : P s) : P (finish s) := by
  have settled := settle_induction P (fun s i hs _ due => step s i hs due) Config.eventFuel _ (next s h)
  unfold finish
  rcases closeEvent_cases (settle Config.eventFuel (goOn s)) with ⟨-, hc⟩ | ⟨-, -, hc⟩ <;> rw [hc]
  · exact settled
  · exact close _ settled

/-- What every end of an event keeps, closing it keeps. -/
theorem closeEvent_induction (P : State → Prop) (close : ∀ s, P s → P (endEvent s)) (s : State) (h : P s) :
    P (closeEvent s) := by
  rcases closeEvent_cases s with ⟨-, hc⟩ | ⟨-, -, hc⟩ <;> rw [hc]
  · exact h
  · exact close _ h

/-- What every due step, every end and every beginning of an event, every going on and the event's direct effect keep, the
whole event keeps. -/
theorem atEvent_induction (P : State → Prop) (f : State → State) (next : ∀ s, P s → P (goOn s))
    (step : ∀ s i, P s → isDue i s = true → P (runInternal i s)) (close : ∀ s, P s → P (endEvent s))
    (mark : ∀ s, P s → P (beginEvent s)) (direct : ∀ s, P s → P (f s)) (s : State) (h : P s) : P (atEvent f s) := by
  have kept : ∀ (steps : List Internal) s i, P s → i ∈ steps → isDue i s = true → P (runInternal i s) :=
    fun _ s i hs _ due => step s i hs due
  rcases atEvent_cases f s with e | ⟨-, t, run, e⟩ <;> rw [e]
  · exact closeEvent_induction P close _ (direct _ (mark _ (finish_induction P next step close s h)))
  · have at' := direct _ (mark _ (settleAmong_induction localAtOnce P (kept _) Config.eventFuel _ (next s h)))
    exact closeEvent_induction P close _ (untilTake_induction P (kept _) _ _ _ at' run).1

/-- The same of the event of a press. -/
theorem atPress_induction (P : State → Prop) (f : State → State) (next : ∀ s, P s → P (goOn s))
    (step : ∀ s i, P s → isDue i s = true → P (runInternal i s)) (close : ∀ s, P s → P (endEvent s))
    (mark : ∀ s, P s → P (beginEvent s)) (direct : ∀ s, P s → P (f s)) (s : State) (h : P s) : P (atPress f s) := by
  rcases atPress_cases f s with ⟨-, e⟩ | ⟨-, e⟩ <;> rw [e]
  · exact closeEvent_induction P close _ (direct _ (mark _ h))
  · exact atEvent_induction P f next step close mark direct s h

end Sys2Proof.Machine
end

