-- ==== Sys2Proof/Laws/Figures.lean ====
section
/-! SUPPORT. The spans an order presents, the progress its render makes, and the decoding of the station record, each once and
in the terms of Safety. -/

namespace Sys2Proof.Machine

/-- The channel after the render of its last granted span is as its order says. -/
theorem spanRendered_progressed (c : Chan) : Progressed c (spanRendered c) := by
  refine ⟨fun cell h => ?_, fun p q i h => ?_, fun p q n h => ?_, fun r n h => ?_, fun p w left image n words h => ?_,
    fun left place kept latch next h => ?_⟩
  · simp only [spanRendered, h]
  · simp only [spanRendered, h]
    by_cases a : i ≤ lineSteps p q
    · rw [if_pos a, if_neg (by omega)]
    · rw [if_neg a, if_pos (by omega)]
  · simp only [spanRendered, h]
    show _ = if rectSpans (blockRect p q) ≤ n then _ else _
    by_cases a : n < rectSpans (blockRect p q)
    · rw [if_pos a, if_neg (by omega)]
    · rw [if_neg a, if_pos (by omega)]
  · simp only [spanRendered, h]
    by_cases a : n < rectSpans r
    · rw [if_pos a, if_neg (by omega)]
    · rw [if_neg a, if_pos (by omega)]
  · simp only [spanRendered, h]
    by_cases a : n < rasterSpans p w
    · rw [if_pos a, if_neg (Nat.not_le.mpr a)]
    · rw [if_neg a, if_pos (Nat.not_lt.mp a)]
      by_cases b : left = 0
      · rw [if_pos b, if_pos b]
      · rw [if_neg b, if_neg b]
  · cases next with
    | none =>
      simp only [spanRendered, h]
      by_cases b : left = 0
      · rw [if_pos b, if_pos trivial, if_pos b, if_pos b]
      · rw [if_neg b, if_pos trivial, if_neg b, if_neg b]
    | some m =>
      simp only [spanRendered, h]
      rw [if_neg (by intro e; cases e)]

/-- What a channel presents, and what its grant leaves, are as its order says. -/
theorem formSpan_presented (rowsOf : Byte → List Byte) (c d : Chan) (p : Span) (h : formSpan rowsOf c = some (p, d)) :
    SpanPresented c p d := by
  refine ⟨fun cell o => ?_, fun a b i o => ?_, fun a b n o => ?_, fun r n o => ?_, fun a w left image n words o => ?_,
    fun a w left image n o => ?_, fun left place kept latch n o => ?_, fun left place kept next o => ?_⟩ <;>
    simp only [formSpan, o] at h
  · obtain ⟨rfl, rfl⟩ := Prod.mk.inj (Option.some.inj h)
    refine ⟨rfl, ?_, fun k hk => ?_, rfl, rfl, rfl⟩
    · have := cell.x.isLt
      show cell.x.val / 16 % 32 = cell.x.val / 16
      omega
    · rw [BitVec.getLsbD_twoPow]
      have : cell.x.val % 16 < 16 := Nat.mod_lt _ (by decide)
      by_cases e : k = cell.x.val % 16
      · subst e
        simp [this]
      · simp [e, Ne.symm e]
  · split at h
    · obtain ⟨rfl, rfl⟩ := Prod.mk.inj (Option.some.inj h)
      exact ⟨rfl, rfl⟩
    · cases h
  · split at h
    · obtain ⟨rfl, rfl⟩ := Prod.mk.inj (Option.some.inj h)
      exact ⟨rfl, rfl⟩
    · cases h
  · split at h
    · obtain ⟨rfl, rfl⟩ := Prod.mk.inj (Option.some.inj h)
      exact ⟨rfl, rfl⟩
    · cases h
  · split at h
    · obtain ⟨rfl, rfl⟩ := Prod.mk.inj (Option.some.inj h)
      exact ⟨rfl, rfl⟩
    · cases h
  · split at h
    · obtain ⟨rfl, rfl⟩ := Prod.mk.inj (Option.some.inj h)
      exact ⟨rfl, rfl⟩
    · cases h
  · obtain ⟨rfl, rfl⟩ := Prod.mk.inj (Option.some.inj h)
    rfl
  · split at h
    · cases h
    · split at h
      · cases h
      · obtain ⟨rfl, rfl⟩ := Prod.mk.inj (Option.some.inj h)
        unfold textGranted
        split
        · exact ⟨_, _, _, _, _, rfl, rfl⟩
        · exact ⟨_, _, _, _, _, rfl, rfl⟩

/-- The effective copy is decoded from the record (R135). -/
theorem effectiveOf_decoded (r : Station) : Decoded r (effectiveOf r.cells r.committed) := by
  have code (b : Byte) : b.toNat % 4 = 0 ∨ b.toNat % 4 = 1 ∨ b.toNat % 4 = 2 ∨ b.toNat % 4 = 3 := by omega
  refine ⟨?_, ?_, ?_, ?_, ?_, ?_, ?_, ?_, ?_⟩ <;> simp only [effectiveOf]
  · cases sparseGet false r.committed 0 with
    | false => rfl
    | true =>
      simp only [if_true, Option.bind_some, stationNumberOf]
      by_cases h : (sparseGet 0 r.cells 0).toNat % 32 < 31
      · rw [dif_pos h]
      · rw [dif_neg h]
        have := Nat.mod_lt (sparseGet 0 r.cells 0).toNat (show 32 > 0 by decide)
        show 31 = (sparseGet 0 r.cells 0).toNat % 32
        omega
  · cases sparseGet false r.committed 1 with
    | false => rfl
    | true =>
      simp only [if_true, Option.map_some, Option.getD_some, rateOf]
      rcases code (sparseGet 0 r.cells 1) with h | h | h | h <;> rw [h] <;> rfl
  · cases sparseGet false r.committed 2 with
    | false => rfl
    | true =>
      simp only [if_true, Option.map_some, Option.getD_some, BitVec.getLsbD, Nat.testBit_zero]
      rcases Nat.mod_two_eq_zero_or_one (sparseGet 0 r.cells 2).toNat with h | h <;> rw [h] <;> rfl
  · cases sparseGet false r.committed 3 with
    | false => rfl
    | true =>
      simp only [if_true, Option.map_some, Option.getD_some, clampPeriod]
      split
      · omega
      · split <;> omega
  · cases sparseGet false r.committed 4 <;> rfl
  · cases sparseGet false r.committed 5 with
    | false => rfl
    | true =>
      simp only [if_true, Option.map_some, Option.getD_some, dividerOf]
      rcases code (sparseGet 0 r.cells 5) with h | h | h | h <;> rw [h] <;> rfl
  · cases sparseGet false r.committed 6 with
    | false => rfl
    | true =>
      simp only [if_true, Option.map_some, Option.getD_some, pairOf]
      rcases code (sparseGet 0 r.cells 6) with h | h | h | h <;> rw [h] <;> rfl
  · cases sparseGet false r.committed 7 with
    | false => rfl
    | true =>
      simp only [if_true, Option.map_some, Option.getD_some, filterOf]
      rcases code (sparseGet 0 r.cells 7) with h | h | h | h <;> rw [h] <;> rfl
  · cases sparseGet false r.committed 8 with
    | false => rfl
    | true =>
      simp only [if_true, Option.map_some, Option.getD_some, routeOfCode]
      rcases code (sparseGet 0 r.cells 8) with h | h | h | h <;> rw [h] <;> rfl

end Sys2Proof.Machine
end

