-- ==== Sys2Proof/Laws/Memory.lean ====
section
/-! SUPPORT. Every operation on an addressed store keeps its canonical form, and the state after reset has it. -/

namespace Sys2Proof.Machine

/-- A table whose keys lie below a bound keeps that across a write at a key below it. -/
theorem tableWf_set {α : Type} [DecidableEq α] (d : α) (n : Nat) (m : List (Nat × α)) (a : Nat) (v : α)
    (h : TableWf d n m) (ha : a < n) : TableWf d n (sparseSet d m a v) := by
  refine ⟨sparseSet_wf d m a v h.1, fun p hp => ?_⟩
  rcases mem_sparseSet d m a v p hp with ⟨rfl, -⟩ | hp
  · exact ha
  · exact h.2 p hp

/-- A table made from a function has the bound it was made with. -/
theorem tableWf_table {α : Type} [DecidableEq α] (d : α) (n : Nat) (f : Nat → α) : TableWf d n (sparseTable d n f) :=
  ⟨sparseTable_wf d n f, fun p hp => ((mem_sparseTable d n f p).1 hp).1⟩

/-- The empty table. -/
theorem tableWf_nil {α : Type} [DecidableEq α] (d : α) (n : Nat) : TableWf d n [] :=
  ⟨⟨.nil, fun _ h => nomatch h⟩, fun _ h => nomatch h⟩

/-- The key of a row-group lies below 16384, and names its row and group (R1). -/
theorem rowKey_lt (y : Coord) (g : Group) : rowKey y g < 16384 := by
  have hy := y.isLt
  have hg := g.isLt
  simp only [rowKey]
  omega

theorem rowKey_inj (y z : Coord) (g h : Group) (e : rowKey y g = rowKey z h) : y = z ∧ g = h := by
  have hg := g.isLt
  have hh := h.isLt
  simp only [rowKey] at e
  exact ⟨Fin.ext (by omega), Fin.ext (by omega)⟩

/-- The address of a glyph row lies below 4096, and names its slot and row (R34). -/
theorem glyphAddress_lt (slot : Byte) (r : Nat) (h : r < 16) : glyphAddress slot r < 4096 := by
  have hs := slot.isLt
  simp only [glyphAddress]
  omega

/-- A strike item keeps the form of the panel. -/
theorem applyItem_wf (item : StrikeItem) (lit : List (Nat × Cells)) (h : TableWf 0 16384 lit) :
    TableWf 0 16384 (applyItem item lit) := by
  cases item with
  | bulk => exact tableWf_nil _ _
  | strike kind y g cells => cases kind <;> exact tableWf_set _ _ _ _ _ h (rowKey_lt y g)

/-- Drawing a span keeps the form of the shadow image. -/
theorem drawSpan_wf (h : Held) (s : State) (hs : TableWf 0 16384 s.engine.shadow) :
    TableWf 0 16384 (drawSpan h s).engine.shadow := by
  rcases drawSpan_cases h s with ⟨-, e⟩ | ⟨-, e, -⟩ <;> rw [e]
  · exact hs
  · exact tableWf_set _ _ _ _ _ hs (rowKey_lt _ _)

/-- The render of a span keeps the form of the shadow image. -/
theorem renderSpan_wf (h : Held) (s : State) (hs : TableWf 0 16384 s.engine.shadow) :
    TableWf 0 16384 (renderSpan h s).engine.shadow := by
  rw [renderSpan_engine]
  exact drawSpan_wf h s hs

/-- Loading a slot's rows keeps the form of the glyph memory. -/
theorem loadRows_wf (slot : Byte) (rows : List Byte) : ∀ (r : Nat) (glyphs : List Host.Cell), r + rows.length ≤ 16 →
    TableWf 0 4096 glyphs → TableWf 0 4096 (loadRows glyphs slot r rows) := by
  induction rows with
  | nil => exact fun _ _ _ h => h
  | cons row rest ih =>
    intro r glyphs hr h
    simp only [List.length_cons] at hr
    exact ih (r + 1) _ (by omega) (tableWf_set _ _ _ _ _ h (glyphAddress_lt slot r (by omega)))

/-- The rows that at most 8 data words carry are at most 16. -/
theorem rowsOfWords_length (words : List Word) : (rowsOfWords words).length = 2 * words.length := by
  induction words with
  | nil => rfl
  | cons w rest ih =>
    simp only [rowsOfWords, List.flatMap_cons, List.length_append, List.length_cons, List.length_nil] at *
    omega

/-- A GLYPH unit keeps the form of the glyph memory. -/
theorem glyphUnit_wf (ch : Channel) (slot : Byte) (s : State) (h : TableWf 0 4096 s.engine.glyphs) :
    TableWf 0 4096 (glyphUnit ch slot s).engine.glyphs := by
  unfold glyphUnit
  split
  · simpa using h
  · simp only [State.withChan_engine, State.withEngine_engine]
    refine loadRows_wf slot _ 0 _ ?_ h
    rw [rowsOfWords_length, List.length_take]
    omega

/-- A take keeps the form of the stale-row table. -/
theorem takeRow_wf (s : State) (h : TableWf .coherent 512 s.tracker.stale) :
    TableWf .coherent 512 (takeRow s).tracker.stale := by
  rcases takeRow_cases s with ⟨-, e⟩ | ⟨-, -, e⟩ | ⟨-, y, kind, found, e⟩ <;> rw [e]
  · exact h
  · exact h
  · exact tableWf_set _ _ _ _ _ h (h.2 _ (rowToTake_mem _ _ _ found))

/-- A REPAINT keeps the form of the stale-row table. -/
theorem repaintedTable_wf (t : Tracker) : TableWf .coherent 512 (repaintedTable t) := tableWf_table _ _ _

/-- The table with every row BLANK. -/
theorem allBlank_wf : TableWf .coherent 512 allBlank := tableWf_table _ _ _

/-- Every row of that table is BLANK. -/
theorem allBlank_get (y : Coord) : sparseGet .coherent allBlank y.val = .blank := by
  rw [allBlank, sparseGet_table, if_pos y.isLt]

/-- The free value with which a sustain start leaves the panel has the panel's form. -/
theorem panelStarted_wf (p : Panel) : TableWf 0 16384 (panelStarted p).lit := by
  simp only [panelStarted]
  exact tableWf_table (0 : Cells) 16384 (Config.panelAtStart p.starts)

/-- A programming operation keeps the form of the record. -/
theorem programmed_wf (operation : Program) (r : Station) (hc : TableWf 0 9 r.cells) (hm : TableWf false 9 r.committed)
    (hf : match operation with | .write field _ => field.toNat ≤ 8 | .commit field => field.toNat ≤ 8 | .lock => True) :
    TableWf 0 9 (programmed operation r).cells ∧ TableWf false 9 (programmed operation r).committed := by
  cases operation with
  | write field value => exact ⟨tableWf_set _ _ _ _ _ hc (by simpa using Nat.lt_succ_of_le hf), hm⟩
  | commit field => exact ⟨hc, tableWf_set _ _ _ _ _ hm (by simpa using Nat.lt_succ_of_le hf)⟩
  | lock => exact ⟨hc, hm⟩

/-- The stores right after reset have their canonical form. -/
theorem reset_memoryWf : MemoryWf State.reset := by
  have stale : State.reset.tracker.stale = allBlank := by simp only [State.reset]
  have empty {α : Type} [DecidableEq α] (d : α) (n : Nat) : TableWf d n [] := tableWf_nil d n
  exact ⟨empty 0 16384, empty 0 4096, empty 0 16384, stale ▸ allBlank_wf, empty 0 9, empty false 9⟩

/-- A row-group just written reads as written, and every other reads as before. -/
theorem shadow_set (s : State) (y z : Coord) (g h : Group) (cells : Cells) (hs : TableWf 0 16384 s.engine.shadow) :
    sparseGet 0 (sparseSet 0 s.engine.shadow (rowKey y g) cells) (rowKey z h) =
      if z = y ∧ h = g then cells else shadowAt s z h := by
  rw [sparseGet_set 0 _ _ _ _ hs.1]
  by_cases e : rowKey z h = rowKey y g
  · obtain ⟨rfl, rfl⟩ := rowKey_inj _ _ _ _ e
    simp
  · have : ¬(z = y ∧ h = g) := by rintro ⟨rfl, rfl⟩; exact e rfl
    simp [e, this, shadowAt]

end Sys2Proof.Machine
end

