-- ==== Sys2Proof/WellFormed.lean ====
section
/-! DEFINITION. Which commands are well formed. Only IGNORED_WRITE has operand values outside its row. -/

namespace Sys2Proof

/-- A write that R129 and R134 name as ignored: to a location 1, 2 or 4 to 7, or to location 3 with an unassigned
function code, 0 or 11 to 15 (R142). A write to location 0, or of an assigned control word, is another row. -/
def ignoredAt (location : BitVec 3) (word : Word) : Bool :=
  match location.toNat with
  | 0 => false
  | 3 => word.toNat / 4096 = 0 || 11 ≤ word.toNat / 4096
  | _ => true

/-- The command's operands lie within its row of the table. -/
def WellFormed : Instr → Bool
  | .ignoredWrite location word => ignoredAt location word
  | .powerOnReset | .terminalReset | .terminalResetRelease => true
  | .supplyDroop _ | .supplyRecover _ | .settleTimerExpiry | .cycleStart | .addressWindow => true
  | .restoreStep | .arbiterGrant | .spanRender | .droppedRowHandling _ => true
  | .nop _ | .move _ | .dot _ | .line _ | .block _ | .raster _ | .text _ | .newline _ | .margin _ | .mode _ => true
  | .clip _ | .glyph _ | .wipe _ | .pass _ | .repaint _ => true
  | .take _ | .give _ | .area _ | .lock _ | .route _ | .timing _ => true
  | .order _ | .input | .status => true
  | .clearLocal _ | .resume _ | .eventAck _ | .eventEnable _ | .panelOn _ | .panelOff _ => true
  | .recordSelect _ | .recordWrite _ | .recordCommit _ | .recordLock _ | .programmingOperationEnd => true
  | .scanEvent _ _ | .characterStart _ | .characterArrival _ | .orders _ | .clear _ | .poll _ => true
  | .turnaroundGapExpiry | .replySent | .lineGoesHigh => true

end Sys2Proof
end

