-- ==== Sys2Proof/Tests/Slice0.lean ====
section
/-! SUPPORT. Tests: the well-formedness smoke test, the word layouts written out from chapter 13, and one-step tests of commands
on numbers of the manual's rules and worked cases. -/

namespace Sys2Proof.Tests

open Sys2Proof Sys2Proof.Machine

set_option Elab.async false

/-! ### Well-formedness -/

/-- A write to location 0 is ORDER, not an ignored write (R129). -/
theorem test_wf_refuses_order_as_ignored : WellFormed (.ignoredWrite 0 5) = false := by decide
/-- Control code 1 is CLEAR-LOCAL and code 10 RECORD-LOCK (R142). -/
theorem test_wf_refuses_clear_local_as_ignored : WellFormed (.ignoredWrite 3 0x1000) = false := by decide
theorem test_wf_refuses_record_lock_as_ignored : WellFormed (.ignoredWrite 3 0xAFFF) = false := by decide
/-- Control codes 0 and 11..15 are unassigned, and writes to locations 1, 2 and 4..7 are ignored (R129, R134). -/
theorem test_wf_takes_unassigned_codes :
    WellFormed (.ignoredWrite 3 0x0FFF) = true ∧ WellFormed (.ignoredWrite 3 0xB000) = true ∧
      WellFormed (.ignoredWrite 3 0xFFFF) = true := by decide
theorem test_wf_takes_read_only_locations :
    ∀ l : Fin 8, (l.val = 1 ∨ l.val = 2 ∨ 4 ≤ l.val) → WellFormed (.ignoredWrite (BitVec.ofFin l) 0x1234) = true := by
  decide

/-! ### Words, written out from the layouts of chapter 13 -/

/-- Control words by their code in bits 15..12 (R142): EVENT-ACK of INPUT and HALT, RECORD-WRITE of 0x2A to field 3. -/
theorem test_control_words :
    decodePortWrite 3 0b0001_000000000000 = .clearLocal 0 ∧
      decodePortWrite 3 0b0011_0000_01001000 = .eventAck 0b01001000 ∧
      decodePortWrite 3 0b1000_0011_00101010 = .recordWrite 0b0011_00101010 ∧
      decodePortWrite 3 0b1010_000000000000 = .recordLock 0 ∧
      decodePortWrite 3 0b1011_000000000000 = .ignoredWrite 3 0xB000 ∧ decodePortWrite 0 4096 = .order 4096 ∧
      decodePortRead 1 = some .input ∧ decodePortRead 2 = some .status ∧ decodePortRead 3 = none := by decide
/-- MOVE is 4096, MODE with INVERSE and size 1 is 36866, TEXT with count 2 is 24578 (section 13.1). -/
theorem test_head_words :
    headKind 4096 = some .move ∧ headKind 36866 = some .mode ∧ modeOf 36866 = .inverse ∧ sizeFieldOf 36866 = .one ∧
      headKind 24578 = some .text ∧ countOf 24578 = 2 ∧ headKind 0xE005 = some .timing ∧ headKind 0xE006 = none := by
  decide
/-- The x word 513 of section 4.10 fails the argument check; 511 does not. A RASTER width of 0 stands for 512 (R26). -/
theorem test_coordinate_words : badCoordinate 513 = true ∧ badCoordinate 511 = false ∧ extentOf 0 = 512 := by decide
/-- A press on (5, 9) is 4185, a PASS with payload 90 is 8282 (R142). -/
theorem test_record_words : recordWord (.touch { tx := 5, ty := 9 }) = 4185 ∧ recordWord (.pass 90) = 8282 := by decide
/-- Cell 7, committed 1, effective 31 is the word 16135 (R142). -/
theorem test_record_field_word : recordFieldWord 7 true 31 = 16135 := by decide
/-- The address character 60 on the line: data bits least significant first, mark 1, parity 0 (section 13.4). -/
theorem test_address_character :
    characterBits 60 true = [false, false, false, true, true, true, true, false, false, true, false, true] := by decide

/-- The same twelve bit times as received: the byte 60 with its mark, parity 0 and a high stop bit (R143). -/
theorem test_received_character :
    (List.range 12).map (0b1_0_1_00111100_0 : BitVec 12).getLsbD =
        [false, false, false, true, true, true, true, false, false, true, false, true] ∧
      receivedChar 0b1_0_1_00111100_0 = { data := 60, mark := true, parity := false, stop := true } := by decide

/-! ### States to start from -/

/-- A LIVE panel, every row COHERENT, in the station number 7 of the worked cases. -/
def live : State :=
  { State.reset with
    tracker := { stale := [], scanner := { active := false, sweep := 0, current := none } }
    sustain :=
      { State.reset.sustain with
        supply := 175000, supplyState := .good, panelState := .live, cycle := some { place := 0, drive := none } }
    station := { State.reset.station with effective := { Effective.initial with station := some 7 } } }

/-- `live` with a line channel. -/
def withLine (c : Chan) : State := live.withLineChan c

/-- A channel with words in its FIFO. -/
def holdingWords (words : List Word) : Chan := { Chan.initial with fifo := words }

/-- A channel with an order in progress. -/
def carrying (o : Order) : Chan := { Chan.initial with order := some o }

/-- The state a command answers; the state itself where it answers none. -/
def after (c : Instr) (s : State) : State := match exec c s with | .next t => t | .fault _ => s | .refused _ => s

/-- The cells of the worked case of section 1.5: cells 0, 1, 2, 3 and 8. -/
def oldCells : Cells := 0b0000000100001111

/-! ### Drawing -/

/-- The four modes of section 1.5, O = 0 1 2 3 8, B = 2..9, F = 2 4 6 8. -/
theorem test_combine :
    combine .write oldCells 0b1111111100 0b101010100 = 0b101011111 ∧ combine .erase oldCells 0b1111111100 0b101010100 = 0b1011 ∧
      combine .inverse oldCells 0b1111111100 0b101010100 = 0b1011011 ∧
      combine .rewrite oldCells 0b1111111100 0b101010100 = 0b101010111 := by decide
/-- The line of section 2.4 from (2, 3) to (9, 6), and the two of its ties example. -/
theorem test_line_cells :
    (List.range 8).map (lineCell { x := 2, y := 3 } { x := 9, y := 6 }) =
        [(2, 3), (3, 3), (4, 4), (5, 4), (6, 5), (7, 5), (8, 6), (9, 6)] ∧
      (List.range 5).map (lineCell { x := 0, y := 0 } { x := 4, y := 2 }) = [(0, 0), (1, 1), (2, 1), (3, 2), (4, 2)] ∧
      (List.range 5).map (lineCell { x := 4, y := 2 } { x := 0, y := 0 }) = [(4, 2), (3, 1), (2, 1), (1, 0), (0, 0)] := by
  decide +kernel
/-- The second span of that line in INVERSE mode hands over ERASE 4 and then WRITE 5 (section 2.4). -/
theorem test_line_span_inverse :
    let start := { carrying (.line { x := 2, y := 3 } { x := 9, y := 6 } 2) with
      context := { Context.initial with mode := .inverse } }
    let t := after (.line .lineCh) ((withLine start).withEngine { live.engine with shadow := [(128, 0b1000010000)] })
    t.strikes.items = [.strike .erase 4 0 0b10000, .strike .write 4 0 0b100000] ∧
      t.lineChan.order = some (.line { x := 2, y := 3 } { x := 9, y := 6 } 4) := by decide +kernel
/-- A handed item of the newest item's kind, row and group widens it (the second LINE of section 2.4). -/
theorem test_tail_merge :
    handOver .write 6 0 0b1110000000000 [.strike .write 5 0 0b11000000, .strike .write 6 0 0b1100000000] =
      [.strike .write 5 0 0b11000000, .strike .write 6 0 0b1111100000000] := by decide
/-- A RASTER row of width 20 at column 30 lies in groups 1, 2, 3; its first word's 1 at column 30 is cell 14 (section 2.6). -/
theorem test_raster_spans :
    rasterSpans { x := 30, y := 1 } 20 = 3 ∧ rasterWords 20 = 2 ∧
      (rasterSpan { x := 30, y := 1 } 20 0 0 [0xAAAA, 0xA000]).on = 0b0100000000000000 ∧
      (rasterSpan { x := 30, y := 1 } 20 0 1 [0xAAAA, 0xA000]).on = 0b0101010101010101 ∧
      (rasterSpan { x := 30, y := 1 } 20 0 2 [0xAAAA, 0xA000]).on = 1 := by decide +kernel
/-- DOT at (18, 7) lights cell 2 of group 1 of row 7 (R20), and sets the position with pen fresh clear (R17). -/
theorem test_dot_draws :
    let t := after (.dot .lineCh) (withLine (holdingWords [0x2000, 18, 7]))
    shadowAt t 7 1 = 0b100 ∧ t.lineChan.context.position = { x := 18, y := 7 } ∧ t.lineChan.context.penFresh = false := by
  decide +kernel
/-- A BLOCK from (0, 0) to (17, 0): its first span is group 0, all 16 cells (R25). -/
theorem test_block_first_span :
    let t := after (.block .lineCh) (withLine (holdingWords [0x4000, 17, 0]))
    shadowAt t 0 0 = 0xFFFF ∧ shadowAt t 0 1 = 0 := by decide +kernel
/-- A WIPE of a LIVE panel leaves one BULK item (R31, R67). -/
theorem test_wipe_purges :
    (after (.wipe .lineCh) ((withLine (holdingWords [0xB000])).withStrikes
      { items := [.strike .write 0 0 1], turn := .scanner })).strikes.items = [.bulk] := by decide +kernel

/-! ### Channels and port -/

/-- MOVE with x word 513 halts the local channel with cause ARGUMENT (section 4.10). -/
theorem test_move_argument :
    let t := after (.move .localCh) (live.withLocalChan (holdingWords [4096, 513, 0]))
    t.localChan.response = .halted ∧ t.localChan.cause = .argument ∧ flagSet .halt t = true := by decide +kernel
/-- MODE 36866 sets INVERSE (section 13.1). -/
theorem test_mode_inverse :
    (after (.mode .lineCh) (withLine (holdingWords [36866]))).lineChan.context.mode = .inverse := by decide +kernel
/-- NEWLINE from y 3 at size 1 goes to 3 - 16 + 512 = 499 (R46). -/
theorem test_newline_wraps :
    let c := holdingWords [0x7000]
    (after (.newline .lineCh)
      (withLine { c with context := { c.context with position := { x := 9, y := 3 } } })).lineChan.context.position =
        { x := 0, y := 499 } := by decide +kernel
/-- A refused order word raises REFUSED alone (R55). -/
theorem test_order_refused :
    (after (.order 0) (live.withLocalChan { Chan.initial with response := .hold })).port.flags = 0b10 := by decide +kernel
/-- An order word in ACCEPT joins the FIFO and waits for its arguments. -/
theorem test_order_taken : (after (.order 4096) live).localChan.fifo = [4096] := by decide +kernel
/-- STATUS of a settled LIVE panel: panel state 2 at bits 7..6 and settled at bit 8 (R142). -/
theorem test_status_word : (after .status live).port.data = 0b0000000110000000 := by decide +kernel
/-- INPUT returns the oldest record, 4185 for a press on (5, 9), and it leaves. -/
theorem test_input_record :
    let t := after .input (live.withPort { live.port with input := [.touch { tx := 5, ty := 9 }, .pass 90] })
    t.port.data = 4185 ∧ t.port.input = [.pass 90] := by decide +kernel
/-- PASS with payload 90 joins the local input queue and raises INPUT (R59, R132). -/
theorem test_pass_joins :
    let t := after (.pass .lineCh) (withLine (holdingWords [0xD05A]))
    t.port.input = [.pass 90] ∧ flagSet .input t = true := by decide +kernel
/-- GLYPH data word 0x8001 in word 0: row 0 is 0x80 and row 1 is 0x01 (R36). -/
theorem test_glyph_rows :
    (glyphRows (after (.glyph .lineCh) (withLine (holdingWords [0xA041, 0x8001, 0, 0, 0, 0, 0, 0, 0x1234]))).engine.glyphs
      0x41) = [0x80, 1, 0, 0, 0, 0, 0, 0, 0, 0, 0, 0, 0, 0, 0x12, 0x34] := by decide +kernel
/-- TAKE puts an ACCEPT local channel in HOLD and raises TAKEOVER (R105). -/
theorem test_take_holds :
    let t := after (.take .lineCh) (withLine (holdingWords [0xE000]))
    t.localChan.response = .hold ∧ t.supervision.takeover = true ∧ flagSet .takeover t = true := by decide +kernel
/-- TIMING 20, 0 is clamped to 40, 1 and TIMING 1000, 40 to 160, 16 (section 6.8). -/
theorem test_timing_clamps :
    (after (.timing .lineCh) (withLine (holdingWords [0xE005, 20, 0]))).sustain.pendingTiming = { period := 40, dead := 1 } ∧
      (after (.timing .lineCh) (withLine (holdingWords [0xE005, 1000, 40]))).sustain.pendingTiming =
        { period := 160, dead := 16 } := by decide +kernel

/-! ### Sustain, touch, line, record -/

/-- The five timing cases of section 6.8: effective dead time, pulse width, slot. -/
theorem test_timing_cases :
    ([⟨40, 16⟩, ⟨81, 5⟩, ⟨80, 4⟩, ⟨160, 16⟩, ⟨55, 16⟩] : List Timing).map
        (fun t => (effectiveDead t, pulseWidth t, slotLength t)) =
      [(8, 8, 8), (5, 31, 9), (4, 32, 8), (16, 60, 8), (15, 8, 9)] := by decide
/-- A supply above recover takes LOW to SETTLING with 20 ms to run (R76). -/
theorem test_supply_recovers :
    let t := after (.supplyRecover 175000) State.reset
    t.sustain.supplyState = .settling ∧ t.sustain.settle = some 80000 := by decide +kernel
/-- A window on a LIVE panel applies the head item (R69). -/
theorem test_window_applies :
    let t := after .addressWindow (live.withStrikes { items := [.strike .write 3 0 0b1100], turn := .scanner })
    panelAt t 3 0 = 0b1100 ∧ t.strikes.items = [] ∧ flagSet .settled t = true := by decide +kernel
/-- A droop on a LIVE panel: DARK, the queue purged, PANEL raised (R83). -/
theorem test_droop_darkens :
    let t := after (.supplyDroop 150000) (live.withStrikes { items := [.bulk], turn := .scanner })
    t.sustain.panelState = .dark ∧ t.strikes.items = [] ∧ flagSet .panel t = true := by decide +kernel
/-- Scans 1, 3 and 9 of section 9.4. -/
theorem test_scan_results :
    scanResult 0b11000000000 0b1110000 = .cell { tx := 5, ty := 9 } ∧
      scanResult 0b11000000000 0b1001110000 = .ambiguous ∧ scanResult 0 0b100000 = .ambiguous := by decide +kernel
/-- Scan 7 of section 9.4: the fourth CELL(5, 9) is a press. -/
theorem test_fourth_scan_presses :
    filterStep 4 (.candidate { tx := 5, ty := 9 } 3) (.cell { tx := 5, ty := 9 }) =
      (.held { tx := 5, ty := 9 } none 0, some { tx := 5, ty := 9 }) := by decide
/-- An address character 57, station 7 and kind ORDERS, is taken into LENGTH; 65, of station 8, is passed over. -/
theorem test_address_taken :
    let start := live.withLineIf { live.lineIf with receiver := .receiving }
    (after (.characterArrival 0b1_0_1_00111001_0) start).lineIf.assembler =
        .length { station := 7, kind := .orders, length := none, bytesLeft := 0, sum := 57, high := none } ∧
      (after (.characterArrival 0b1_0_1_01000001_0) start).lineIf.assembler = .hunt := by
  decide +kernel
/-- The reply of section 13.4, byte by byte. -/
theorem test_reply_bytes :
    let press (x y : BitVec 4) : InputRecord := .touch { tx := x, ty := y }
    replyBytes (((live.withLineChan (holdingWords (List.replicate 219 0))).withStrikes
        { items := [.bulk], turn := .scanner }).withLineIf
          { live.lineIf with
            discards := 2, roomFlag := true, upstream := [press 5 9, press 6 9, press 5 9, press 2 3, press 1 1] }) =
      [60, 7, 0, 16, 0, 37, 1, 18, 16, 89, 16, 105, 16, 89, 16, 35, 247] := by decide +kernel
/-- A field's cell bits go from 0 to 1 only (R138). -/
theorem test_record_bits_rise :
    let s := live.withStation
      { live.station with cells := [(0, 5)], programming := some { operation := .write 0 2, left := 1 } }
    (after .programmingOperationEnd s).station.cells = [(0, 7)] := by decide +kernel
/-- A block without a command counts down its scan timer (log entry 2). -/
theorem test_idle_quarter :
    (match step State.reset with | .next t => t.touch.timer | .fault _ => none | .refused _ => none) = some 39999 := by
  decide +kernel

/-! ### Witnesses: a state and operands that meet the hypotheses of each statement, clause by clause -/

/-- A span of one cell at row 5, presented by a channel. -/
def oneCell (ch : Channel) : Held := { channel := ch, span := { row := 5, group := 0, box := 1, on := 1, wipe := false } }

/-- `s` with a span held WAITING. -/
def waiting (h : Held) (s : State) : State := s.withEngine { s.engine with held := some h }

/-- `n` strike items, no two of the same row. -/
def items (n : Nat) : List StrikeItem := (List.range n).map fun k => .strike .write (coord (100 + k)) 0 1

/-- `s` with that many items queued, and the room turn with a producer. -/
def filled (n : Nat) (turn : Producer) (s : State) : State := s.withStrikes { items := items n, turn := turn }

/-- `s` with the scanner ACTIVE at group `g` of row 7. -/
def restoring (kind : StaleKind) (g : Group) (s : State) : State :=
  s.withTracker { s.tracker with scanner := { active := true, sweep := 7, current := some { row := 7, kind := kind, next := g } } }

/-- `s` with an order in progress on a channel. -/
def inProgress (ch : Channel) (o : Order) (s : State) : State := s.withChan ch { s.chan ch with order := some o }

/-- `s` with words in a channel's FIFO. -/
def fed (ch : Channel) (words : List Word) (s : State) : State := s.withChan ch { s.chan ch with fifo := words }

/-- `s` under takeover, its local channel in HOLD. -/
def taken (s : State) : State :=
  (s.withSupervision { s.supervision with takeover := true }).withLocalChan { s.localChan with response := .hold }

/-- `s` with some of its line interface set. -/
def lined (f : LineInterface → LineInterface) (s : State) : State := s.withLineIf (f s.lineIf)

theorem witness_StepRunsTheFrontCommand : (live.withPending [.status]).pending = .status :: [] := rfl

/-- Every timer runs with the least left, at the places before the slot and at the cycle's end. -/
def ticking (place : Nat) : State :=
  ((live.withSustain
    { live.sustain with cycle := some { place := place, drive := none }, settle := some 2 }).withTouch
      { live.touch with timer := some 2 }).withStation
        { live.station with programming := some { operation := .lock, left := 2 } }

theorem witness_IdleBlockLetsAQuarterPass (place : Nat) (hp : place = 70 ∨ place = 72 ∨ place = 78) :
    let s := ticking place
    s.pending = [] ∧ AtRest s ∧
      (∀ c, s.sustain.cycle = some c →
        c.place + 1 ≠ slotStart s.sustain.effectiveTiming ∧ c.place + 1 < s.sustain.effectiveTiming.period) ∧
      (∀ n, s.sustain.settle = some n → 1 < n) ∧ (∀ n, s.touch.timer = some n → 1 < n) ∧
      (∀ p, s.station.programming = some p → 1 < p.left) ∧ s.lineIf.reply = .idle := by
  rcases hp with rfl | rfl | rfl <;> refine ⟨rfl, by decide +kernel, ?_, ?_, ?_, ?_, rfl⟩ <;> rintro _ ⟨⟩ <;> decide

theorem witness_OutsideEventFinishesTheOneBefore :
    isInternal .status = false ∧ resumeOpen (fed .localCh [0x2000, 18, 7] live) = false ∧
      placesOpen (fed .localCh [0x2000, 18, 7] live) = false ∧ AtRest (finish (fed .localCh [0x2000, 18, 7] live)) ∧
      dueStep (fed .localCh [0x2000, 18, 7] live) ≠ none := by decide +kernel

theorem witness_StepNotDueChangesNothing :
    restoreDue live = false ∧ grantee live = none ∧ renderDue live = false ∧ droppedRowDue .lineCh live = false ∧
      orderReached .move .lineCh live = false ∧ orderGranted .move .lineCh live = false := by decide +kernel

/-- Every command answers a next state, so `after` is what it answers. -/
theorem exec_after (c : Instr) (s : State) : exec c s = .next (after c s) := by cases c <;> rfl

theorem witness_EventEndRaisesItsFlags :
    (AtRest (fed .localCh [0x2000] live) ∧
      (after (.clearLocal 0) (fed .localCh [0x2000] live)).event = none ∧
      flagSet .drained (after (.clearLocal 0) (fed .localCh [0x2000] live)) = true) ∧
    (isInternal (.nop .localCh) = true ∧ (after (.nop .localCh) (fed .localCh [0] live)).event = none ∧
      (fed .localCh [0] live).event = none) := by decide +kernel

theorem witness_HeldSpanRenders :
    (let s := waiting (oneCell .lineCh) (filled 62 .scanner live)
     MemoryWf s ∧ s.engine.held = some (oneCell .lineCh) ∧ renderCondition s (oneCell .lineCh) = true ∧
      needsRoom s (oneCell .lineCh) = true) ∧
    (let s := waiting (oneCell .localCh) (live.withTracker { live.tracker with stale := [(5, .unknown)] })
     MemoryWf s ∧ renderCondition s (oneCell .localCh) = true ∧ needsRoom s (oneCell .localCh) = false) := by
  constructor <;> decide +kernel

/-- A held span whose render is that of the order's last span, or of one before it. -/
theorem witness_HeldSpanRenders_orders :
    (∀ o ∈ ([.dot { x := 18, y := 7 } true, .line { x := 2, y := 3 } { x := 9, y := 6 } 7,
        .line { x := 2, y := 3 } { x := 9, y := 6 } 8, .block { x := 0, y := 0 } { x := 17, y := 0 } 1,
        .block { x := 0, y := 0 } { x := 17, y := 0 } 2, .wipeArea { xLo := 0, yLo := 0, xHi := 15, yHi := 1 } 1,
        .wipeArea { xLo := 0, yLo := 0, xHi := 15, yHi := 1 } 2, .raster { x := 30, y := 1 } 20 1 0 2 (some [1, 2]),
        .raster { x := 30, y := 1 } 20 1 0 3 (some [1, 2]), .raster { x := 30, y := 1 } 20 0 1 3 (some [1, 2]),
        .text 1 { x := 8, y := 0 } none (some { code := 5, rows := [] }) (some 15),
        .text 1 { x := 8, y := 0 } none (some { code := 5, rows := [] }) none,
        .text 0 { x := 8, y := 0 } none (some { code := 5, rows := [] }) none] : List Order),
      let s := inProgress .localCh o (waiting (oneCell .localCh) live)
      MemoryWf s ∧ s.engine.held = some (oneCell .localCh) ∧ renderCondition s (oneCell .localCh) = true ∧
        (s.chan .localCh).order = some o) ∧
    lineSteps { x := 2, y := 3 } { x := 9, y := 6 } = 7 ∧ rectSpans (rectOf 0 0 17 0) = 2 ∧
      rectSpans { xLo := 0, yLo := 0, xHi := 15, yHi := 1 } = 2 ∧ rasterSpans { x := 30, y := 1 } 20 = 3 := by
  decide +kernel

/-- An order with a span to present. -/
def dotOrder : Order := .dot { x := 18, y := 7 } false

theorem witness_ArbiterAlternates :
    (waiting (oneCell .lineCh) live).engine.held.isSome = true ∧
    (let s := inProgress .lineCh dotOrder live
     s.engine.held = none ∧ presents s .lineCh = true ∧ presents s .localCh = false ∧ grantee s = some .lineCh) ∧
    (let s := inProgress .localCh dotOrder live
     s.engine.held = none ∧ presents s .lineCh = false ∧ presents s .localCh = true) ∧
    (let s := inProgress .lineCh dotOrder (inProgress .localCh dotOrder live)
     s.engine.held = none ∧ presents s .lineCh = true ∧ presents s .localCh = true) ∧
    (live.engine.held = none ∧ presents live .lineCh = false ∧ presents live .localCh = false) ∧
    (ResponsesLegal (taken live) ∧ (taken live).supervision.takeover = true) := by decide +kernel

theorem witness_GrantedSpanIsPlaced :
    (let s := filled 62 .scanner (inProgress .lineCh dotOrder live)
     MemoryWf s ∧ Granted .lineCh s dotOrder ∧ unitReady s .lineCh = false ∧
      ∃ p c, spanReady s .lineCh = some (p, c) ∧ renderCondition s { channel := .lineCh, span := p } = true) ∧
    (let s := filled 63 .scanner (inProgress .lineCh dotOrder live)
     MemoryWf s ∧ Granted .lineCh s dotOrder ∧ unitReady s .lineCh = false ∧
      ∃ p c, spanReady s .lineCh = some (p, c) ∧ renderCondition s { channel := .lineCh, span := p } = false) :=
  ⟨⟨by decide +kernel, by decide +kernel, by decide +kernel, _, _, rfl, by decide +kernel⟩,
    ⟨by decide +kernel, by decide +kernel, by decide +kernel, _, _, rfl, by decide +kernel⟩⟩

/-- Every order that gives spans, at the last of them where it has a number. -/
theorem witness_GrantedSpanIsPlaced_orders :
    ∀ o ∈ ([dotOrder, .line { x := 2, y := 3 } { x := 9, y := 6 } 7, .block { x := 0, y := 0 } { x := 17, y := 0 } 1,
        .wipeArea { xLo := 0, yLo := 0, xHi := 15, yHi := 1 } 1, .raster { x := 30, y := 1 } 20 1 0 2 (some [1, 2]),
        .raster { x := 30, y := 1 } 20 1 1 0 none, .text 1 { x := 8, y := 0 } none (some { code := 5, rows := [] }) (some 15),
        .text 1 { x := 8, y := 0 } none none none] : List Order),
      let s := fed .lineCh [0x4142, 3] (inProgress .lineCh o live)
      MemoryWf s ∧ Granted .lineCh s o ∧ unitReady s .lineCh = false ∧ (spanReady s .lineCh).isSome = true := by
  decide +kernel

/-- The scanner claims alone, the engine FREE or holding a span of a stale row, with 62 and 63 items in the queue. -/
theorem witness_RoomIsShared_scanner :
    (∀ n ∈ [62, 63],
      let s := restoring .unknown 3 (filled n .scanner live)
      s.engine.held = none ∧ scannerClaims s = true ∧ strikeFree s = 64 - n) ∧
    (let s := waiting (oneCell .lineCh)
      (restoring .unknown 3 (filled 62 .scanner (live.withTracker { live.tracker with stale := [(5, .blank)] })))
     s.engine.held = some (oneCell .lineCh) ∧ needsRoom s (oneCell .lineCh) = false ∧ scannerClaims s = true) := by
  decide +kernel

theorem witness_RoomIsShared :
    (let s := waiting (oneCell .lineCh) (restoring .unknown 3 (filled 63 .engine live))
     s.engine.held = some (oneCell .lineCh) ∧ needsRoom s (oneCell .lineCh) = true ∧ strikeFree s < 2) ∧
    (let s := waiting (oneCell .lineCh) (filled 62 .engine live)
     needsRoom s (oneCell .lineCh) = true ∧ 2 ≤ strikeFree s ∧ scannerClaims s = false ∧ renderDue s = true) ∧
    (let s := waiting (oneCell .lineCh) (restoring .unknown 3 (filled 62 .engine live))
     needsRoom s (oneCell .lineCh) = true ∧ 2 ≤ strikeFree s ∧ scannerClaims s = true ∧ restoreDue s = true) ∧
    (let s := waiting (oneCell .lineCh) (restoring .unknown 3 (filled 62 .scanner live))
     needsRoom s (oneCell .lineCh) = true ∧ 2 ≤ strikeFree s ∧ scannerClaims s = true ∧ renderDue s = true) := by
  decide +kernel

theorem witness_LocalDrawingStaysInItsArea :
    (let s := waiting (oneCell .localCh) live
     MemoryWf s ∧
      shadowCell (after .spanRender s) 5 0 0 ≠ shadowCell s 5 0 0) ∧
    (let s := inProgress .localCh dotOrder live
     MemoryWf s ∧ grantee s = some .localCh ∧
      (s.chan .localCh).order ≠ some .wipe ∧ shadowCell (after .arbiterGrant s) 7 1 2 ≠ shadowCell s 7 1 2) := by
  constructor <;> decide +kernel

/-- The end step of a line along x, of one along y, and of one of a single cell. -/
theorem witness_LineWalksItsMajorAxis :
    7 ≤ lineSteps { x := 2, y := 3 } { x := 9, y := 6 } ∧ 511 ≤ lineSteps { x := 4, y := 511 } { x := 0, y := 0 } ∧
      0 ≤ lineSteps { x := 511, y := 0 } { x := 511, y := 0 } := by decide

/-- A first span, and the last of a line that fills a row. -/
theorem witness_LineIsCutIntoSpans :
    (0 ≤ lineSteps { x := 2, y := 3 } { x := 9, y := 6 } ∧
      (lineSpan { x := 2, y := 3 } { x := 9, y := 6 } 0).2 ≤ lineSteps { x := 2, y := 3 } { x := 9, y := 6 }) ∧
    (496 ≤ lineSteps { x := 0, y := 9 } { x := 511, y := 9 } ∧
      (lineSpan { x := 0, y := 9 } { x := 511, y := 9 } 496).2 = 512) := by decide +kernel

/-- What the panel state implies holds after reset. -/
theorem reset_panelLegal : PanelLegal State.reset := by
  refine ⟨fun _ => ⟨?_, ?_, ?_⟩, ?_, ?_, ?_, ?_, ?_⟩ <;> simp [State.reset]

/-- Memory and panel state after reset, with other words in a channel and another local area. -/
theorem reset_sound (ch : Channel) (words : List Word) (v : Supervision) :
    MemoryWf (fed ch words (State.reset.withSupervision v)) ∧ PanelLegal (fed ch words (State.reset.withSupervision v)) := by
  have m := reset_memoryWf
  have p := reset_panelLegal
  constructor
  · simpa only [MemoryWf, fed, State.withChan_engine, State.withChan_panel, State.withChan_tracker, State.withChan_station,
      State.withSupervision_engine, State.withSupervision_panel, State.withSupervision_tracker,
      State.withSupervision_station] using m
  · simpa only [PanelLegal, fed, State.withChan_sustain, State.withChan_strikes, State.withChan_tracker,
      State.withChan_terminalReset, State.withSupervision_sustain, State.withSupervision_strikes,
      State.withSupervision_tracker, State.withSupervision_terminalReset] using p

/-- Step 0 of the line is drawn, and cell 0 of row 6 is on no step. -/
theorem witness_LineIsDrawnWhole :
    let s := fed .lineCh [0x3000, 9, 6] (State.reset.withSupervision State.reset.supervision)
    MemoryWf s ∧ PanelLegal s ∧ s.sustain.panelState ≠ .live ∧ s.engine.held = none ∧
      (s.chan (otherChannel .lineCh)).order = none ∧ (s.chan (otherChannel .lineCh)).fifo = [] ∧
      ReachesOrder .lineCh s .line 0x3000 [9, 6] [] :=
  ⟨(reset_sound _ _ _).1, (reset_sound _ _ _).2, by decide, by decide, by decide, by decide, by decide +kernel⟩

theorem witness_LineIsDrawnWhole_cells :
    lineCell { x := 0, y := 0 } { x := 9, y := 6 } 0 = (0, 0) ∧ lineCell { x := 0, y := 0 } { x := 9, y := 6 } 9 = (9, 6) ∧
      mayDraw State.reset .lineCh 9 6 = true ∧
      ∀ i, i ≤ 9 → lineCell { x := 0, y := 0 } { x := 9, y := 6 } i ≠ (0, 6) := by decide +kernel

/-- The whole panel and one cell, at the last span of each. -/
theorem witness_RectangleIsCutIntoSpans :
    (Rect.whole.xLo ≤ Rect.whole.xHi ∧ Rect.whole.yLo ≤ Rect.whole.yHi ∧ 16383 < rectSpans Rect.whole ∧
      inRect Rect.whole 511 0 = true) ∧
    (let r : Rect := { xLo := 15, yLo := 511, xHi := 15, yHi := 511 }
     r.xLo ≤ r.xHi ∧ r.yLo ≤ r.yHi ∧ 0 < rectSpans r ∧ rectSpans r = 1 ∧ inRect r 15 511 = true) := by decide

/-- Both channels, the local one with a local area that cuts the block. -/
theorem witness_BlockIsDrawnWhole (ch : Channel) :
    let s := fed ch [0x4FFF, 17, 1] (State.reset.withSupervision
      { State.reset.supervision with area := { xLo := 0, yLo := 0, xHi := 3, yHi := 511 } })
    MemoryWf s ∧ PanelLegal s ∧ s.sustain.panelState ≠ .live ∧ s.engine.held = none ∧
      (s.chan (otherChannel ch)).order = none ∧ (s.chan (otherChannel ch)).fifo = [] ∧
      ReachesOrder ch s .block 0x4FFF [17, 1] [] := by
  refine ⟨(reset_sound _ _ _).1, (reset_sound _ _ _).2, ?_⟩
  cases ch <;> decide +kernel

theorem witness_RasterRowIsCutIntoSpans :
    (1 ≤ 512 ∧ 512 ≤ 512 ∧ 511 ≤ (511 : Coord).val ∧ 31 < rasterSpans { x := 0, y := 511 } 512) ∧
      (1 ≤ 1 ∧ 1 ≤ 512 ∧ 0 ≤ (0 : Coord).val ∧ 0 < rasterSpans { x := 511, y := 0 } 1) := by decide

/-- A row at the panel's edge, and the first row below it with rows left after it or none. -/
theorem witness_RasterTakesItsRows :
    (let s := fed .lineCh [1, 2] (inProgress .lineCh (.raster { x := 30, y := 1 } 20 3 1 0 none) live)
     (3 ≠ 0 ∧ rasterWords 20 ≤ (s.chan .lineCh).fifo.length) ∧
      Granted .lineCh s (.raster { x := 30, y := 1 } 20 3 1 0 none) ∧ 1 ≤ (1 : Coord).val ∧
      2 ≤ rasterSpans { x := 30, y := 1 } 20) ∧
    (let s := fed .lineCh [1, 2] (inProgress .lineCh (.raster { x := 30, y := 1 } 20 1 2 0 none) live)
     rasterWords 20 ≤ (s.chan .lineCh).fifo.length ∧ (s.chan .lineCh).response = .accept ∧
      (s.chan .lineCh).order = some (.raster { x := 30, y := 1 } 20 1 2 0 none) ∧ (1 : Coord).val < 2) ∧
    (let s := fed .localCh [1, 2] (inProgress .localCh (.raster { x := 30, y := 1 } 20 2 2 0 none) live)
     rasterWords 20 ≤ (s.chan .localCh).fifo.length ∧ (s.chan .localCh).response = .accept) := by decide +kernel

/-- A box inside the panel, and one cut by its upper right corner. -/
theorem witness_CharacterCoversItsBox :
    (15 < 16 ∧ 7 < 8 ∧ 1 < scaleOf .two ∧ 0 + scaleOf .two * 7 + 1 ≤ 511 ∧
      0 < charSpans .two { x := 0, y := 0 } ∧ (charSpan .two { x := 0, y := 0 } [] 0).box.getLsbD 0 = true) ∧
    (0 < 16 ∧ 0 < scaleOf .one ∧ 511 + scaleOf .one * 0 + 0 ≤ 511 ∧
      511 + pitchOf .one - 1 - (scaleOf .one * 15 + 0) ≤ 511 ∧ charSpans .one { x := 511, y := 511 } = 1 ∧
      (charSpan .one { x := 511, y := 511 } [] 0).box.getLsbD 15 = true) := by decide +kernel

/-- A first span of a pending code and of a code from the FIFO, and a last span whose render follows or waits, of the last
character or another, with and without a wrap. -/
theorem witness_TextDrawsItsCharacters :
    (let o : Order := .text 1 { x := 8, y := 0 } (some 5) none none
     let s := inProgress .lineCh o live
     1 ≠ 0 ∧ Granted .lineCh s o ∧ 2 ≤ charSpans (s.chan .lineCh).context.size { x := 8, y := 0 }) ∧
    (let o : Order := .text 2 { x := 8, y := 0 } none none none
     let s := fed .localCh [0x4142] (inProgress .localCh o live)
     Granted .localCh s o ∧ 2 ≤ charSpans (s.chan .localCh).context.size { x := 8, y := 0 }) ∧
    (let o : Order := .text 0 { x := 504, y := 0 } none (some { code := 5, rows := [] }) (some 15)
     let s := inProgress .lineCh o live
     Granted .lineCh s o ∧ 15 + 1 = charSpans (s.chan .lineCh).context.size { x := 504, y := 0 } ∧
      512 ≤ (504 : Coord).val + advanceOf (s.chan .lineCh).context.size ∧ (after (.text .lineCh) s).engine.held = none) ∧
    (let o : Order := .text 1 { x := 503, y := 0 } none (some { code := 5, rows := [] }) (some 15)
     let s := filled 63 .scanner (inProgress .lineCh o live)
     Granted .lineCh s o ∧ 15 + 1 = charSpans (s.chan .lineCh).context.size { x := 503, y := 0 } ∧
      (after (.text .lineCh) s).engine.held ≠ none) := by decide +kernel

theorem witness_WipeTakesItsPath :
    (let s := fed .localCh [0xB000, 0] (waiting (oneCell .lineCh) live)
     s.engine.held.isSome = true ∧ ReachesOrder .localCh s .wipe 0xB000 [] [0]) ∧
    Granted .lineCh (inProgress .lineCh .wipe live) .wipe ∧
    Granted .lineCh (inProgress .lineCh .wipe State.reset) .wipe ∧
    (Granted .localCh (inProgress .localCh .wipe live) .wipe ∧ live.supervision.area = Rect.whole) ∧
    (let s := inProgress .localCh .wipe
      (live.withSupervision { live.supervision with area := { xLo := 0, yLo := 0, xHi := 510, yHi := 511 } })
     Granted .localCh s .wipe ∧ s.supervision.area ≠ Rect.whole) := by decide +kernel

theorem witness_MoveIsCarriedOut :
    ReachesOrder .lineCh (fed .lineCh [4096, 511, 0, 7] live) .move 4096 [511, 0] [7] ∧
      ((inProgress .localCh dotOrder live).chan .localCh).order.isSome = true := by decide +kernel

theorem witness_NewlineAndMarginAreCarriedOut :
    ReachesOrder .lineCh (fed .lineCh [0x7000] live) .newline 0x7000 [] [] ∧
      ReachesOrder .localCh (fed .localCh [0x8FFF] live) .margin 0x8FFF [] [] := by decide +kernel

theorem witness_NopModeAndClipAreCarriedOut :
    ReachesOrder .lineCh (fed .lineCh [5, 9] live) .nop 5 [] [9] ∧
      ReachesOrder .localCh (fed .localCh [0x9007] live) .mode 0x9007 [] [] ∧
      ReachesOrder .lineCh (fed .lineCh [0xC000, 511, 0, 0, 511] live) .clip 0xC000 [511, 0, 0, 511] [] := by decide +kernel

/-- A state with these words in the line FIFO, the engine holding a span. -/
def front (words : List Word) : State := fed .lineCh words (waiting (oneCell .localCh) live)

/-- One front of a FIFO for each granted order. -/
theorem witness_GrantedOrderStarts_figures :
    (front []).engine.held.isSome = true ∧ ReachesOrder .lineCh (front [0x2000, 1, 2]) .dot 0x2000 [1, 2] [] ∧
      ReachesOrder .lineCh (front [0x3000, 0, 0]) .line 0x3000 [0, 0] [] ∧
      ReachesOrder .lineCh (front [0x4000, 511, 511]) .block 0x4000 [511, 511] [] ∧
      ReachesOrder .lineCh (front [0x5000, 0, 1, 7]) .raster 0x5000 [0, 1] [7] := by decide +kernel

theorem witness_GrantedOrderStarts_others :
    ReachesOrder .lineCh (front [0x6000]) .text 0x6000 [] [] ∧ ReachesOrder .lineCh (front [0x60FF]) .text 0x60FF [] [] ∧
      ReachesOrder .lineCh (front [0xA0FF]) .glyph 0xA0FF [] [] ∧ ReachesOrder .lineCh (front [0xDFFF]) .pass 0xDFFF [] [] ∧
      ReachesOrder .lineCh (front [0xF000]) .repaint 0xF000 [] [] := by decide +kernel

theorem witness_GrantedOrderStarts_supervise :
    ReachesOrder .lineCh (front [0xE000]) .take 0xE000 [] [] ∧ ReachesOrder .lineCh (front [0xE001]) .give 0xE001 [] [] ∧
      ReachesOrder .lineCh (front [0xE002, 9, 8, 7, 6]) .area 0xE002 [9, 8, 7, 6] [] ∧
      ReachesOrder .lineCh (front [0xE003, 0xFFFF]) .lock 0xE003 [0xFFFF] [] ∧
      ReachesOrder .lineCh (front [0xE004, 3]) .route 0xE004 [3] [] ∧
      ReachesOrder .lineCh (front [0xE005, 0, 0xFFFF]) .timing 0xE005 [0, 0xFFFF] [] := by decide +kernel

/-- The words of each granted order of the line channel, its head word first, with a free engine: the piece is granted at once. -/
theorem witness_GrantedOrderStarts_free :
    ∀ w ∈ ([(.dot, [0x2000, 1, 2]), (.line, [0x3000, 9, 6]), (.block, [0x4000, 511, 511]), (.raster, [0x5000, 1, 1, 7]),
        (.text, [0x6001, 0x4100]), (.glyph, [0xA0FF, 1, 2, 3, 4, 5, 6, 7, 8]), (.wipe, [0xB000]), (.pass, [0xDFFF]),
        (.repaint, [0xF000]), (.take, [0xE000]), (.give, [0xE001]), (.area, [0xE002, 9, 8, 7, 6]), (.lock, [0xE003, 15]),
        (.route, [0xE004, 3]), (.timing, [0xE005, 0, 0xFFFF])] : List (OrderKind × List Word)),
      let s := fed .lineCh w.2 live
      orderReached w.1 .lineCh s = true ∧ grantee (decodeStep .lineCh (beginEvent s)) = some .lineCh := by decide +kernel

/-- Orders whose piece is not granted at their start, the engine FREE: words missing, no unit room, nothing to draw. -/
theorem witness_GrantedOrderStarts_waits :
    ∀ w ∈ ([(.raster, [0x5000, 1, 1]), (.text, [0x6001]), (.text, [0x6000]), (.glyph, [0xA0FF, 1])] :
        List (OrderKind × List Word)),
      let s := fed .localCh w.2 live
      orderReached w.1 .localCh s = true ∧ grantee (decodeStep .localCh (beginEvent s)) = none := by decide +kernel

theorem witness_MalformedOrderHalts :
    (let s := fed .localCh [0x1000, 512, 0] live
     (s.chan .localCh).response = .accept ∧ (s.chan .localCh).order = none ∧
      (s.chan .localCh).fifo = 0x1000 :: [512, 0] ∧ headKind 0x1000 = some .move ∧
      coordinateArguments .move = true ∧ isSupervise 0x1000 = false ∧ argumentCount .move ≤ [512, 0].length ∧
      (512 : Word) ∈ ([512, 0] : List Word).take (argumentCount .move) ∧ 512 ≤ (512 : Word).toNat) ∧
    ((fed .localCh [0xE002] live).localChan.fifo = 0xE002 :: [] ∧ (0xE002 : Word).toNat / 4096 = 14) ∧
    ((fed .lineCh [0xE006] live).lineChan.fifo = 0xE006 :: [] ∧ (0xE006 : Word).toNat / 4096 = 14 ∧
      6 ≤ (0xE006 : Word).toNat % 16) := by decide +kernel

/-- `s` with the terminal reset input asserted. -/
def asserted (s : State) : State := s.withTerminalReset true

theorem witness_OrderWordIsTakenOrRefused :
    (AtRest (asserted State.reset) ∧ (asserted State.reset).terminalReset = true) ∧
    (let s := fed .localCh (List.replicate 63 0xA000) (inProgress .localCh .wipe (waiting (oneCell .lineCh) (filled 63 .engine live)))
     AtRest s ∧ s.terminalReset = false ∧ s.localChan.response = .accept ∧ s.localChan.fifo.length < 64) ∧
    (let s := fed .localCh (List.replicate 64 0xA000) (inProgress .localCh .wipe (waiting (oneCell .lineCh) (filled 63 .engine live)))
     AtRest s ∧ s.localChan.response = .accept ∧ 64 ≤ s.localChan.fifo.length) ∧
    (AtRest (taken live) ∧ (taken live).localChan.response ≠ .accept) := by decide +kernel

theorem witness_ClearLocalEmptiesTheChannel :
    (AtRest (taken live) ∧ (taken live).terminalReset = false) ∧
      AtRest (waiting (oneCell .localCh) (filled 63 .engine live)) := by decide +kernel

theorem witness_GlyphLoadsItsSlot :
    (let s := fed .lineCh [1, 2, 3, 4, 5, 6, 7, 8] (inProgress .lineCh (.glyph 255) live)
     MemoryWf s ∧ Granted .lineCh s (.glyph 255)) ∧
    (let s := fed .localCh [1, 2, 3, 4, 5, 6, 7, 8, 9]
      ((inProgress .localCh (.glyph 192) live).withEngine { live.engine with lockSet := 0b0111 })
     MemoryWf s ∧ Granted .localCh s (.glyph 192) ∧
      s.engine.lockSet.getLsbD ((192 : Byte).toNat / 64) = false) ∧
    (let s := fed .localCh [1, 2, 3, 4, 5, 6, 7, 8]
      ((inProgress .localCh (.glyph 255) live).withEngine { live.engine with lockSet := 0b1000 })
     MemoryWf s ∧ Granted .localCh s (.glyph 255) ∧
      s.engine.lockSet.getLsbD ((255 : Byte).toNat / 64) = true) := by
  refine ⟨?_, ?_, ?_⟩ <;> decide +kernel

/-- Queues with 15 records, the most that leave room, and with 16. -/
theorem witness_PassJoinsTheOtherQueue :
    (let s := (inProgress .lineCh (.pass 90) live).withPort { live.port with input := List.replicate 15 (.pass 1) }
     Granted .lineCh s (.pass 90)) ∧
    Granted .lineCh (inProgress .lineCh (.pass 90) live) (.pass 90) ∧
    (let s := lined (fun l => { l with upstream := List.replicate 15 (.pass 1) }) (inProgress .localCh (.pass 90) live)
     Granted .localCh s (.pass 90)) ∧
    (let s := (inProgress .lineCh (.pass 90) live).withPort { live.port with input := List.replicate 16 (.pass 1) }
     (s.chan .lineCh).order = some (.pass 90) ∧ 16 ≤ s.port.input.length) ∧
    (let s := lined (fun l => { l with upstream := List.replicate 16 (.pass 1) }) (inProgress .localCh (.pass 90) live)
     (s.chan .localCh).order = some (.pass 90) ∧ 16 ≤ s.lineIf.upstream.length) := by decide +kernel

theorem witness_ResetsGiveTheirValues :
    AtRest (taken live) ∧ (effectiveOf (taken live).station.cells (taken live).station.committed).pair = .b ∧
      AtRest (asserted live) ∧
      AtRest ((taken live).withSustain { live.sustain with supply := 170001 }) ∧
      AtRest ((taken live).withSustain { live.sustain with supply := 170000 }) := by decide +kernel

/-- A supply just above the recover threshold of pair B, and one equal to it. -/
theorem witness_ReleaseOfResetStartsTheTimers :
    (let s := asserted (State.reset.withSustain { State.reset.sustain with supply := 170001 })
     AtRest s ∧ s.terminalReset = true ∧ s.sustain.supplyState = .low ∧ s.sustain.settle = none ∧
      s.station.effective.pair = .b ∧ 170000 < s.sustain.supply) ∧
    (let s := asserted (State.reset.withSustain { State.reset.sustain with supply := 170000 })
     AtRest s ∧ s.sustain.supply ≤ 170000) := by decide +kernel

/-- A PRIMING panel, at the start of its first address slot. -/
def priming : State :=
  State.reset.withSustain
    { live.sustain with panelState := .priming, cycle := some { place := 71, drive := none } }

theorem priming_sound : MemoryWf priming ∧ PanelLegal priming := by
  constructor
  · have m := reset_memoryWf
    simpa only [MemoryWf, priming, State.withSustain_engine, State.withSustain_panel, State.withSustain_tracker,
      State.withSustain_station] using m
  · refine ⟨fun _ => ⟨?_, ?_, ?_⟩, ?_, ?_, ?_, ?_, ?_⟩ <;> simp [State.reset, priming, live]

theorem witness_WindowAppliesTheHead :
    (let s := filled 1 .scanner live
     MemoryWf s ∧ AtRest s ∧ s.sustain.divider = 0 ∧ s.sustain.panelState = .live ∧
      s.strikes.items = .strike .write 100 0 1 :: []) ∧
    (MemoryWf live ∧ AtRest live ∧ live.sustain.divider = 0 ∧ live.sustain.panelState = .live ∧ live.strikes.items = []) ∧
    (AtRest priming ∧ priming.sustain.divider = 0 ∧ priming.sustain.panelState = .priming) ∧
    (let s := live.withSustain { live.sustain with divider := 1 }
     MemoryWf s ∧ AtRest s ∧ s.sustain.divider ≠ 0) ∧
    (AtRest State.reset ∧ State.reset.sustain.panelState = .dark) := by
  refine ⟨?_, ?_, ?_, ?_, ?_⟩ <;> decide +kernel

theorem witness_HandedItemJoinsTheTail :
    TableWf (0 : Cells) 16384 [(160, 0xFFFF)] ∧
      ([.strike .write 5 0 1] : List StrikeItem).getLast? = some (.strike .write 5 0 1) ∧ (0x8000 : Cells) ≠ 0 ∧
      (∀ h, ([.strike .erase 5 0 1] : List StrikeItem).getLast? ≠ some (.strike .write 5 0 h)) ∧
      QueueLegal [.bulk, .strike .erase 5 0 1] := by
  refine ⟨by decide, by decide, by decide, by simp, ?_, by decide, by decide⟩
  intro k y g cells h
  simp at h
  simp [h]

/-- A monitor state on a panel that is not running. -/
def monitor (state : SupplyState) (timer : Option Nat) : State :=
  live.withSustain { live.sustain with supplyState := state, settle := timer, panelState := .dark, cycle := none }

/-- Levels just below the droop threshold of pair B, just above its recover threshold, and at both. -/
theorem witness_SupplyMonitorChangesState :
    (MemoryWf (monitor .settling (some 1)) ∧ AtRest (monitor .settling (some 1)) ∧ live.terminalReset = false ∧
      live.station.effective.pair = .b ∧ (monitor .settling (some 1)).sustain.supplyState = .settling) ∧
    (AtRest (monitor .good none) ∧ (monitor .good none).sustain.panelState = .dark) ∧
    (MemoryWf (waiting (oneCell .localCh) (filled 63 .engine live)) ∧
      AtRest (waiting (oneCell .localCh) (filled 63 .engine live)) ∧ live.sustain.supplyState = .good ∧
      live.sustain.panelState ≠ .dark) ∧
    (AtRest (monitor .low none) ∧ (monitor .low none).sustain.supplyState = .low) := by
  refine ⟨?_, ?_, ?_, ?_⟩ <;> decide +kernel

theorem witness_SustainStarts :
    (AtRest (monitor .settling (some 1)) ∧ (monitor .settling (some 1)).sustain.settle.isSome = true ∧
      (monitor .settling (some 1)).sustain.enable = true ∧ (monitor .settling (some 1)).sustain.panelState = .dark) ∧
    (let s := (monitor .settling (some 1)).withSustain
      { (monitor .settling (some 1)).sustain with enable := false }
     AtRest s ∧ s.sustain.settle.isSome = true ∧ s.sustain.enable = false) ∧
    (AtRest (monitor .good none) ∧ (monitor .good none).terminalReset = false ∧
      (monitor .good none).sustain.supplyState = .good) ∧
    (AtRest (monitor .low none) ∧ (monitor .low none).sustain.supplyState ≠ .good) := by
  refine ⟨?_, ?_, ?_, ?_⟩ <;> decide +kernel

theorem witness_CycleStartStopsOrGoesOn :
    (let s := waiting (oneCell .localCh) (filled 63 .engine (live.withSustain { live.sustain with enable := false }))
     MemoryWf s ∧ AtRest s ∧ s.sustain.panelState ≠ .dark ∧ s.sustain.enable = false) ∧
    (MemoryWf live ∧ AtRest live ∧ live.sustain.panelState ≠ .dark ∧ live.sustain.enable = true) := by
  refine ⟨?_, ?_⟩ <;> decide +kernel

theorem witness_CycleIsDerived :
    40 ≤ (Timing.mk 40 16).period ∧ (Timing.mk 40 16).dead ≤ 16 ∧ (Timing.mk 160 1).period ≤ 160 ∧
      1 ≤ (Timing.mk 160 1).dead := by decide

/-- The cycle of 80 quarters, W 32 and D 4: the pulses' first and last quarters, the slot's, and the strike's (sections 6.8,
5.7). -/
theorem witness_CycleIsDerived_outputs :
    let at' (place : Nat) (item : Option StrikeItem) : State :=
      live.withSustain { live.sustain with cycle := some { place := place, drive := item } }
    let write : Option StrikeItem := some (.strike .write 5 3 9)
    ((List.range 80).filter fun q => xSustain (at' q write)) = List.range 32 ∧
      ((List.range 80).filter fun q => ySustain (at' q write)) = (List.range 32).map (· + 36) ∧
      ((List.range 80).filter fun q => writeStrike (at' q write)) = [74, 75, 76, 77] ∧
      ((List.range 80).filter fun q => bulkStrike (at' q (some .bulk))) = [74, 75, 76, 77] ∧
      ((List.range 80).filter fun q => eraseStrike (at' q (some (.strike .erase 5 3 9)))) = [74, 75, 76, 77] ∧
      ((List.range 80).filter fun q => rowSelect (at' q write) = 5) = [72, 73, 74, 75, 76, 77, 78, 79] ∧
      groupSelect (at' 72 write) = 3 ∧ cellData (at' 79 write) = 9 ∧ State.reset.sustain.cycle = none := by decide +kernel

/-- A step inside a row, and one at its last group with no row or with one left to take. -/
theorem witness_RestoreStepHandsOverItsGroup :
    (let s := restoring .blank 30 (filled 62 .engine live)
     MemoryWf s ∧ s.sustain.panelState = .live ∧ restoreDue s = true ∧
      s.tracker.scanner.current = some { row := 7, kind := .blank, next := 30 }) ∧
    (let s := restoring .unknown 31 live
     MemoryWf s ∧ restoreDue s = true ∧ s.tracker.stale = [] ∧
      s.tracker.scanner.current = some { row := 7, kind := .unknown, next := 31 }) ∧
    (let s := restoring .unknown 31 (live.withTracker { live.tracker with stale := [(3, .blank)] })
     MemoryWf s ∧ restoreDue s = true ∧ rowToTake s.tracker.stale (coord (7 + 1)).val = some (3, .blank)) := by
  refine ⟨?_, ?_, ?_⟩ <;> decide +kernel

theorem witness_TakeChoosesTheLowestRow :
    TableWf StaleKind.coherent 512 [(3, .blank), (9, .unknown)] ∧
      rowToTake [(3, .blank), (9, .unknown)] 9 = some (9, .unknown) ∧
      rowToTake [(3, .blank), (9, .unknown)] 10 = some (3, .blank) ∧ rowToTake [] 511 = none := by decide +kernel

/-- With a current row, without one, and on a DARK panel. -/
theorem witness_RepaintMakesRowsUnknown :
    (let s := restoring .blank 31 (inProgress .lineCh .repaint (live.withTracker { live.tracker with stale := [(9, .blank)] }))
     MemoryWf s ∧ Granted .lineCh s .repaint ∧ s.sustain.panelState = .live ∧ staleAt s 7 = .coherent ∧
      s.tracker.scanner.current = some { row := 7, kind := .blank, next := 31 }) ∧
    (let s := inProgress .localCh .repaint live
     MemoryWf s ∧ Granted .localCh s .repaint ∧ s.sustain.panelState = .live ∧ s.tracker.scanner.current = none) ∧
    (let s := inProgress .localCh .repaint (monitor .low none)
     MemoryWf s ∧ Granted .localCh s .repaint ∧ s.sustain.panelState ≠ .live) := by
  refine ⟨?_, ?_, ?_⟩ <;> decide +kernel

/-- A LIVE panel with a cell of the shadow still queued, and a row taken as BLANK still to be restored. -/
def following : State :=
  (restoring .blank 1 (live.withEngine { live.engine with shadow := [(0, 1), (224, 3), (225, 5)] })).withStrikes
    { items := [.strike .write 0 0 1, .strike .write 7 0 3], turn := .scanner }

theorem following_panel : projectedPanel following = [(0, 1), (224, 3)] := by decide +kernel

theorem following_follows : PanelFollowsShadow following := by
  intro _
  refine ⟨fun y g _ left => ?_, fun y g h => ?_, fun y h => ?_, fun c h _ g _ => ?_⟩
  · have hy := y.isLt
    have hg := g.isLt
    have notLeft : rowKey y g ≠ 225 := by
      intro e
      have : y = 7 ∧ g = 1 := by
        simp only [rowKey] at e
        exact ⟨Fin.ext (by show y.val = 7; omega), Fin.ext (by show g.val = 1; omega)⟩
      obtain ⟨rfl, rfl⟩ := this
      exact absurd left (by decide)
    have shadow : following.engine.shadow = [(0, 1), (224, 3), (225, 5)] := rfl
    simp only [projectedAt, following_panel, shadowAt, shadow, sparseGet, notLeft, if_false]
  · simp [staleAt, following, restoring, live, sparseGet] at h
  · simp [staleAt, following, restoring, live, sparseGet] at h
  · have : c = { row := 7, kind := .blank, next := 1 } := by
      simpa [following, restoring] using h.symm
    subst this
    revert g
    decide +kernel

theorem witness_PanelFollowsShadowThroughEveryStep :
    MemoryWf following ∧ ProgramWf following ∧ PanelLegal following ∧ CurrentCoherent following ∧
      PanelFollowsShadow following ∧ ∃ t, step following = .next t :=
  ⟨by decide +kernel, trivial, by decide +kernel,
    by intro c h; obtain rfl : c = { row := 7, kind := .blank, next := 1 } := by
         simpa [following, restoring] using h.symm
       decide +kernel, following_follows, _, rfl⟩

/-- A settled panel that shows a picture. -/
def picture : State :=
  (live.withEngine { live.engine with shadow := [(0, 1)] }).withPanel { lit := [(0, 1)], starts := 1 }

theorem witness_SettledPanelShowsTheShadow : PanelLegal picture ∧ PanelFollowsShadow picture ∧ isSettled picture = true := by
  refine ⟨by decide +kernel, fun _ => ⟨fun _ _ _ _ => rfl, fun y g h => ?_, fun y h => ?_, fun c h => ?_⟩, by decide +kernel⟩
  · simp [staleAt, picture, live, sparseGet] at h
  · simp [staleAt, picture, live, sparseGet] at h
  · simp [picture, live] at h

theorem witness_TakeAndGiveMoveTakeover :
    Granted .lineCh (inProgress .lineCh (.supervise .take) live) (.supervise .take) ∧
      live.supervision.takeover = false ∧
      Granted .lineCh (inProgress .lineCh (.supervise .take) (taken live)) (.supervise .take) ∧
      (taken live).supervision.takeover = true ∧
      Granted .lineCh (inProgress .lineCh (.supervise .give) (taken live)) (.supervise .give) ∧
      Granted .lineCh (inProgress .lineCh (.supervise .give) live) (.supervise .give) := by decide +kernel

theorem witness_SuperviseReplacesItsState :
    Granted .lineCh (inProgress .lineCh (.supervise (.area 9 0 0 511)) live) (.supervise (.area 9 0 0 511)) ∧
      Granted .lineCh (inProgress .lineCh (.supervise (.lock 15)) live) (.supervise (.lock 15)) ∧
      Granted .lineCh (inProgress .lineCh (.supervise (.route .toBoth)) live) (.supervise (.route .toBoth)) ∧
      Granted .lineCh (inProgress .lineCh (.supervise (.timing 39 17)) live) (.supervise (.timing 39 17)) ∧
      Granted .lineCh (inProgress .lineCh (.supervise (.timing 161 0)) live) (.supervise (.timing 161 0)) := by
  decide +kernel

/-- A local DOT frozen before its grant, awaiting RESUME. -/
def frozen : State :=
  inProgress .localCh dotOrder ((taken live).withSupervision { live.supervision with resumeAwaited := true })

/-- `frozen` with a frame of these words at its check character. -/
def framed (words : List Word) : State :=
  let record : Reception := { station := 7, kind := .orders, length := some 1, bytesLeft := 0, sum := 58, high := none }
  lined (fun l => { l with receiver := .receiving, assembler := .check record, staging := words }) frozen

/-- `frozen` with a line span held for want of room, and a TAKE behind it in the line FIFO. -/
def blocked : State :=
  waiting (oneCell .lineCh) (filled 63 .engine (fed .lineCh [0xE000]
    (inProgress .lineCh (.dot { x := 0, y := 5 } true) frozen)))

/-- TAKE together with RESUME, RESUME first: the local DOT is granted nothing between them and stays frozen (R108), be the TAKE
alone in its frame, behind a LOCK, or behind a held span. -/
theorem test_take_meets_resume :
    let resumed (c : Instr) (s : State) : State := after c (after (.resume 0) s)
    (∀ t ∈ [resumed (.orders 198) (framed [0xE000]), resumed (.orders 198) (framed [0xE003, 5, 0xE000])],
      t.localChan.response = .hold ∧ t.supervision.takeover = true ∧ t.engine.shadow = [] ∧
        t.localChan.order = some dotOrder) ∧
    (let t := resumed .addressWindow blocked
     t.localChan.response = .hold ∧ t.localChan.order = some dotOrder ∧ shadowAt t 5 0 = 1 ∧ shadowAt t 7 1 = 0) := by
  decide +kernel
/-- The local decoder acts at once on what waits at the RESUME, before the TAKE (R50, R107): MOVE is carried out, and DOT starts
and its presentation is withdrawn. -/
theorem test_decoder_acts_at_resume :
    let waits (words : List Word) : State :=
      (framed [0xE000]).withLocalChan { (holdingWords words) with response := .hold }
    let t := after (.orders 198) (after (.resume 0) (waits [0x1000, 511, 0, 0x2000, 18, 7]))
    t.localChan.context.position = { x := 511, y := 0 } ∧ t.localChan.order = some dotOrder ∧ t.localChan.fifo = [] ∧
      t.localChan.response = .hold ∧ t.supervision.takeover = true ∧ t.engine.shadow = [] := by decide +kernel
/-- With a step between them the two are separate events, and the DOT is drawn. -/
theorem test_take_after_resume :
    let t := after (.orders 198) (after .arbiterGrant (after (.resume 0) (framed [0xE000])))
    t.lineChan.fifo = [0xE000] ∧ t.engine.shadow ≠ [] := by decide +kernel

theorem witness_ResumeReturnsAWaitingChannel_take :
    (∀ words ∈ ([[0xE000], [0xE003, 0xFFF5, 0xE000]] : List (List Word)),
      let s := after (.resume 0) (framed words)
      s.terminalReset = false ∧ resumeOpen s = true ∧ s.localChan.response = .accept ∧ s.supervision.takeover = false ∧
        s.engine.held = none ∧ sendingReply s.lineIf = false ∧ s.lineIf.receiver = .receiving ∧
        checkKind s.lineIf = some .orders ∧ s.lineIf.staging = words ∧ s.lineChan = Chan.initial) ∧
    (58 : Byte) + 198 = 0 ∧ headKind 0xE000 = some .take ∧ headKind 0xE003 = some .lock ∧
    (let s := after (.resume 0) blocked
     resumeOpen s = true ∧ s.localChan.response = .accept ∧ s.supervision.takeover = false ∧ MemoryWf s ∧
      s.engine.held = some (oneCell .lineCh) ∧ s.sustain.panelState = .live ∧ s.sustain.divider = 0 ∧
      s.strikes.items.tail.length = 62 ∧ scannerClaims s = false ∧ (spanRendered s.lineChan).order = none ∧
      s.lineChan.fifo = [0xE000] ∧ s.lineChan.response = .accept) := by
  refine ⟨?_, ?_, ?_, ?_, ?_⟩ <;> decide +kernel

/-- What the local channel keeps: a MOVE or a DOT at the front of its FIFO, or nothing. -/
theorem witness_ResumeReturnsAWaitingChannel_kept :
    let s (words : List Word) : State :=
      after (.resume 0) ((framed [0xE000]).withLocalChan { (holdingWords words) with response := .hold })
    ReachesOrder .localCh (s [0x1000, 511, 0]) .move 0x1000 [511, 0] [] ∧
      ReachesOrder .localCh (s [0x2000, 18, 7]) .dot 0x2000 [18, 7] [] ∧ (s []).localChan.order = none ∧
      (s []).localChan.fifo = [] ∧ resumeOpen (s []) = true ∧
      (after (.resume 0) (framed [0xE000])).localChan.order = some dotOrder ∧
      droppedRowReady (after (.resume 0) (framed [0xE000])).localChan = false := by decide +kernel

/-- A channel awaiting RESUME, and one still under takeover. -/
theorem witness_ResumeReturnsAWaitingChannel :
    (let s := (taken live).withSupervision { live.supervision with resumeAwaited := true }
     AtRest s ∧ s.terminalReset = false ∧ s.localChan.response = .hold ∧ s.supervision.takeover = false ∧
      s.supervision.resumeAwaited = true) ∧
    (AtRest (taken live) ∧ (taken live).supervision.takeover = true) ∧ (AtRest live ∧ live.localChan.response ≠ .hold) := by
  decide +kernel

theorem witness_TakeoverTableIsKept : ResponsesLegal (taken live) ∧ ∃ t, step (taken live) = .next t :=
  ⟨by decide +kernel, _, rfl⟩

/-- The whole axis, one beam at either end, and no run. -/
theorem witness_ScanResultNamesTheMiddle :
    IsRun 0xFFFF 0 16 ∧ IsRun 1 0 1 ∧ IsRun 0x8000 15 1 ∧ ∀ first len, ¬IsRun 5 first len := by
  have run (sample : BitVec 16) (first len : Nat)
      (h : 1 ≤ len ∧ first + len ≤ 16 ∧ ∀ j, j < 16 → sample.getLsbD j = (decide (first ≤ j) && decide (j < first + len))) :
      IsRun sample first len := h
  refine ⟨run _ _ _ (by decide), run _ _ _ (by decide), run _ _ _ (by decide), fun first len h => ?_⟩
  have h0 := h.2.2 0 (by decide)
  have h1 := h.2.2 1 (by decide)
  have h2 := h.2.2 2 (by decide)
  simp at h0 h1 h2
  omega

theorem witness_FilterBelievesNScans :
    2 ≤ 2 ∧ (TouchCell.mk 5 9) ≠ (TouchCell.mk 6 9) ∧ (ScanResult.cell (TouchCell.mk 6 9)) ≠ .cell (TouchCell.mk 5 9) := by
  decide

/-- The scan that completes a candidate, with the queues at 15 and 16 records and each route. -/
def pressing (route : Route) (n : Nat) : State :=
  (lined (fun l => { l with upstream := List.replicate n (.pass 1) })
    (((live.withTouch { live.touch with record := .candidate { tx := 5, ty := 9 } 3 }).withSupervision
      { live.supervision with route := route }).withPort
        { live.port with input := List.replicate n (.pass 1) }))

theorem witness_ScanEventSendsPresses :
    (AtRest (pressing .toBoth 15) ∧ (pressing .toBoth 15).terminalReset = false ∧
      (filterStep 4 (.candidate { tx := 5, ty := 9 } 3) (scanResult 0b1000000000 0b100000)).2 = some { tx := 5, ty := 9 } ∧
      filterValue (pressing .toBoth 15).station.effective.filter = 4) ∧
    AtRest (pressing .toBoth 16) ∧ AtRest (pressing .noMaster 0) ∧ AtRest (pressing .toLocal 0) ∧
    AtRest (pressing .toLine 0) ∧ (filterStep 4 .idle (scanResult 0 0)).2 = none := by decide +kernel

/-- The scan that completes a candidate, both queues full, each with a PASS of its channel waiting for a place, the turnaround
running and a CLEAR frame at its check character. -/
def crowded : State :=
  lined (fun l => { l with
      reply := .turnaround 1, receiver := .receiving
      assembler :=
        .check { station := 7, kind := .clear, length := some 0, bytesLeft := 0, sum := 59, high := none } })
    (inProgress .lineCh (.pass 90) (inProgress .localCh (.pass 91) (pressing .toBoth 16)))

/-- The press of that scan, on (5, 9). -/
def touching : Instr := .scanEvent 0b1000000000 0b100000

/-- Press and INPUT read, queue full and a PASS waiting (R117, R59): read, press, PASS; read, PASS, press; press, read, PASS. -/
theorem test_press_and_read :
    let full := List.replicate 15 (InputRecord.pass 1)
    let press : InputRecord := .touch { tx := 5, ty := 9 }
    (let t := after touching (after .input crowded)
     t.port.input = full ++ [press] ∧ t.port.overflow = false ∧ t.lineChan.order = some (.pass 90)) ∧
    (let t := after touching (after (.pass .lineCh) (after .input crowded))
     t.port.input = full ++ [.pass 90] ∧ t.port.overflow = true) ∧
    (let t := after (.pass .lineCh) (after .input (after touching crowded))
     t.port.input = full ++ [.pass 90] ∧ t.port.overflow = true) := by decide +kernel
/-- Press and reply, press and CLEAR frame, with a local PASS waiting: the press joins before it (R117, R59). -/
theorem test_press_and_reply :
    let press : InputRecord := .touch { tx := 5, ty := 9 }
    (after touching (after .turnaroundGapExpiry crowded)).lineIf.upstream = List.replicate 12 (.pass 1) ++ [press] ∧
      (after touching (after (.clear 197) crowded)).lineIf.upstream = [press] := by decide +kernel

theorem witness_ScanEventSendsPresses_places :
    AtRest crowded ∧ crowded.terminalReset = false ∧ crowded.engine.held = none ∧ crowded.port.input.length = 16 ∧
      crowded.lineIf.upstream.length = 16 ∧ crowded.lineChan.response = .accept ∧
      crowded.lineChan.order = some (.pass 90) ∧ crowded.localChan.response = .accept ∧
      crowded.localChan.order = some (.pass 91) ∧ crowded.lineIf.reply = .turnaround 1 ∧
      crowded.lineIf.receiver = .receiving ∧ checkKind crowded.lineIf = some .clear ∧ (59 : Byte) + 197 = 0 ∧
      sendingReply crowded.lineIf = false ∧ crowded.supervision.route = .toBoth ∧
      crowded.station.effective.route = .toLine ∧ placesOpen (after .input crowded) = true ∧
      (filterStep (filterValue crowded.station.effective.filter) crowded.touch.record
        (scanResult 0b1000000000 0b100000)).2 = some { tx := 5, ty := 9 } := by decide +kernel

/-- Pulses of the rejection width and just below it, at both widths; a receiver that waits; a turnaround. -/
theorem witness_ReceiverFindsCharacters :
    (AtRest live ∧ live.terminalReset = false ∧ sendingReply live.lineIf = false ∧ live.lineIf.receiver = .idle ∧
      live.station.effective.noise = .sixteenth) ∧
    (let s := live.withStation { live.station with effective := { live.station.effective with noise := .quarter } }
     AtRest s ∧ s.station.effective.noise = .quarter) ∧
    AtRest (lined (fun l => { l with receiver := .waitHigh }) live) ∧
    AtRest (lined (fun l => { l with reply := .turnaround 1 }) live) := by decide +kernel

/-- A receiver within a character, and the assembler at some point of a frame. -/
def receiving (a : Assembler) (staging : List Word) : State :=
  lined (fun l => { l with receiver := .receiving, assembler := a, staging := staging, discards := 15 }) live

/-- A reception record of a frame of this kind. -/
def reception (kind : FrameKind) (left : Nat) (sum : Byte) (high : Option Byte) : Reception :=
  { station := 7, kind := kind, length := some 1, bytesLeft := left, sum := sum, high := high }

theorem witness_AssemblerTakesCharacters :
    (∀ a ∈ [Assembler.hunt, .length (reception .orders 0 57 none), .data (reception .orders 2 58 none),
        .data (reception .orders 1 58 (some 9)), .check (reception .orders 0 58 none)],
      AtRest (receiving a []) ∧ (receiving a []).terminalReset = false ∧ sendingReply (receiving a []).lineIf = false ∧
        (receiving a []).lineIf.receiver = .receiving ∧ (receiving a []).lineIf.discards ≤ 15) ∧
    receivedChar 0b1_0_1_00111001_0 = { data := 57, mark := true, parity := false, stop := true } ∧
    receivedChar 0b0_1_0_00000000_1 = { data := 0, mark := false, parity := true, stop := false } ∧
    (onesOf 57 + true.toNat + false.toNat) % 2 ≠ 0 ∧ (onesOf 57 + true.toNat + true.toNat) % 2 = 0 ∧
    frameKindOf 57 = some .orders ∧ (57 : Byte).toNat / 8 = 7 ∧ frameKindOf 60 = none ∧
    frameKindOf 249 = some .orders ∧ (249 : Byte).toNat / 8 = 31 := by decide +kernel

/-- The check of a frame: a sum that is not 0; a HALTED channel; no room; just room; CLEAR; POLL. -/
theorem witness_FrameEndsAtItsCheckCharacter :
    (let s := receiving (.check (reception .orders 0 58 none)) [5]
     AtRest s ∧ s.terminalReset = false ∧ sendingReply s.lineIf = false ∧ s.lineIf.receiver = .receiving ∧
      s.lineIf.assembler = .check (reception .orders 0 58 none) ∧ (58 : Byte) + 197 ≠ 0 ∧ (58 : Byte) + 198 = 0 ∧
      s.lineChan.response ≠ .halted ∧ s.lineIf.staging.length ≤ fifoFree s .lineCh) ∧
    (let s := (receiving (.check (reception .orders 0 58 none)) [5]).withLineChan { Chan.initial with response := .halted }
     AtRest s ∧ s.lineChan.response = .halted) ∧
    (let s := fed .lineCh (List.replicate 256 0xA000) (inProgress .lineCh .wipe
        (waiting (oneCell .localCh) (filled 63 .engine (receiving (.check (reception .orders 0 58 none)) [5]))))
     AtRest s ∧ fifoFree s .lineCh < s.lineIf.staging.length) ∧
    (let s := taken (receiving (.check (reception .clear 0 59 none)) [])
     AtRest s ∧ (59 : Byte) + 197 = 0 ∧ s.supervision.takeover = true) ∧
    (AtRest (receiving (.check (reception .poll 0 58 none)) []) ∧ (58 : Byte) + 198 = 0) := by
  refine ⟨?_, ?_, ?_, ?_, ?_⟩ <;> decide +kernel

/-- No record, and more than one reply carries. -/
theorem witness_ReplyIsComposedAndSent :
    AtRest (lined (fun l => { l with reply := .turnaround 1 }) live) ∧
      AtRest (lined (fun l => { l with reply := .turnaround 1, upstream := List.replicate 5 (.pass 1) }) live) ∧
      AtRest (lined (fun l => { l with reply := .turnaround 1, discards := 15 }) State.reset) ∧
      live.station.effective.station = some 7 ∧ State.reset.station.effective.station = none ∧
      AtRest (lined (fun l => { l with reply := .sending [1] 1 }) live) := by decide +kernel

theorem witness_PortReadsReturnTheirWords :
    (AtRest (asserted State.reset) ∧ (asserted State.reset).terminalReset = true) ∧
    (AtRest live ∧ live.terminalReset = false ∧ live.port.input = []) ∧
    (let s := live.withPort { live.port with input := .touch { tx := 15, ty := 0 } :: List.replicate 15 (.pass 4095) }
     AtRest s ∧ s.port.input = .touch { tx := 15, ty := 0 } :: List.replicate 15 (.pass 4095) ∧ s.port.input.length ≤ 16) := by
  decide +kernel

/-- Every field number, of a part with a period of 160, dead time 16 and its route field committed: 0..8, 9, and 10 on. -/
theorem witness_PortReadsReturnTheirWords_record :
    let e := { live.station.effective with period := 160, dead := 16 }
    let s := live.withStation
      { live.station with effective := e, cells := [(8, 3)], committed := [(8, true)], lockMark := true, lockInEffect := true }
    let word (f : BitVec 4) : Nat := (portRead (s.withPort { s.port with select := f }) 5).toNat
    s.terminalReset = false ∧ e.period ≤ 160 ∧ e.dead ≤ 16 ∧ word 0 = 512 * 7 ∧ word 3 = 512 * 120 ∧ word 4 = 512 * 15 ∧
      word 8 = 3 + 256 + 512 ∧ word 9 = 513 ∧ word 10 = 0 ∧ word 15 = 0 := by decide +kernel

theorem witness_ControlWordsReplaceTheirRegister : AtRest live ∧ live.terminalReset = false := by decide +kernel

/-- Fields 8 and 9 at the range's end, a committed field, a lock in effect, an operation that runs. -/
theorem witness_RecordIsProgrammed :
    (MemoryWf live ∧ ProgramWf live ∧ AtRest live ∧ live.terminalReset = false ∧ live.station.programming = none ∧
      live.station.lockInEffect = false ∧ ((0x8FF : BitVec 12).extractLsb' 8 4).toNat ≤ 8 ∧
      ¬((0x900 : BitVec 12).extractLsb' 8 4).toNat ≤ 8 ∧ sparseGet false live.station.committed 8 = false) ∧
    (let s := live.withStation { live.station with committed := [(8, true)] }
     MemoryWf s ∧ AtRest s ∧ sparseGet false s.station.committed 8 = true) ∧
    (AtRest (live.withStation { live.station with lockInEffect := true })) ∧
    (∀ p ∈ [Program.write 8 255, .commit 8, .lock],
      AtRest (live.withStation { live.station with programming := some { operation := p, left := 1 } })) := by
  refine ⟨⟨by decide +kernel, trivial, ?_⟩, ?_, ?_, ?_⟩ <;> decide +kernel

theorem witness_running_program :
    ProgramWf (live.withStation { live.station with programming := some { operation := .write 8 255, left := 1 } }) ∧
      ProgramWf (live.withStation { live.station with programming := some { operation := .commit 8, left := 1 } }) := by
  constructor <;> exact Nat.le_refl 8

theorem witness_RecordBitsOnlyRise : MemoryWf live ∧ ∃ t, step (live.withPending [.recordLock 0]) = .next t :=
  ⟨by decide +kernel, _, rfl⟩

theorem witness_MemoryFormIsKept : MemoryWf live ∧ ProgramWf live ∧ ∃ t, step live = .next t :=
  ⟨by decide +kernel, trivial, _, rfl⟩

theorem witness_CapacitiesAndRangesAreKept :
    (∃ t, step live = .next t) ∧ WithinCapacities live ∧ QueueLegal (items 2) ∧ TimingLegal live ∧
      TouchLegal (filterCount live) (.held { tx := 1, ty := 1 } (some ({ tx := 2, ty := 1 }, 3)) 3) := by
  refine ⟨⟨_, rfl⟩, ?_, ?_, ?_, by decide, ?_⟩
  · refine ⟨by decide, by decide, by decide, by decide, by decide, by decide, rfl⟩
  · refine ⟨fun k y g cells h => ?_, by decide, by decide⟩
    simp [items, List.range_succ] at h
    rcases h with h | h <;> simp [h]
  · refine ⟨⟨?_, ?_, ?_, ?_⟩, ⟨?_, ?_, ?_, ?_⟩, ?_⟩ <;> decide
  · rintro d k ⟨rfl, rfl⟩
    decide

end Sys2Proof.Tests
end

section
/-! PROOFS. What every part of a step keeps, every step keeps: the commands by their direct effects, the part's own steps, and
the quarter of an idle block. -/

namespace Sys2Proof.Machine

/-! ### Commands by their direct effect -/

/-- The direct effect of a command from outside; the part's own steps have none. -/
def directEffect : Instr → State → State
  | .powerOnReset => powerOn
  | .terminalReset => assertReset
  | .terminalResetRelease => releaseReset
  | .supplyDroop millivolts => supplyMoves millivolts
  | .supplyRecover millivolts => supplyMoves millivolts
  | .settleTimerExpiry => settleExpires
  | .cycleStart => cycleStarts
  | .addressWindow => windowOpens
  | .order word => whenTaken (takeWord word)
  | .input => readInput
  | .status => readStatus
  | .clearLocal _ => whenTaken clearLocal
  | .resume _ => whenTaken resumeLocal
  | .eventAck argument => whenTaken (ackFlags (flagSetOf argument))
  | .eventEnable argument => whenTaken (setEnables (flagSetOf argument))
  | .panelOn _ => whenTaken panelOn
  | .panelOff _ => whenTaken panelOff
  | .recordSelect argument => whenTaken (selectField (fieldOf argument))
  | .recordWrite argument => whenTaken (request (.write (fieldOf argument) (valueOf argument)))
  | .recordCommit argument => whenTaken (request (.commit (fieldOf argument)))
  | .recordLock _ => whenTaken (request .lock)
  | .programmingOperationEnd => programEnds
  | .scanEvent horizontal vertical => scan horizontal vertical
  | .characterStart lowSixteenths => startCharacter lowSixteenths
  | .characterArrival samples => arrive (receivedChar samples)
  | .orders check => checkArrives .orders check
  | .clear check => checkArrives .clear check
  | .poll check => checkArrives .poll check
  | .turnaroundGapExpiry => composeReply
  | .replySent => endReply
  | .lineGoesHigh => lineHigh
  | _ => id

/-- A command from outside is the event of its direct effect; a scan event is that of a press. -/
theorem exec_of_outside (c : Instr) (s : State) (h : isInternal c = false) :
    exec c s = .next (atEvent (directEffect c) s) ∨
      ∃ horizontal vertical, c = .scanEvent horizontal vertical ∧ exec c s = .next (atPress (directEffect c) s) := by
  cases c with
  | scanEvent horizontal vertical => exact .inr ⟨horizontal, vertical, rfl, rfl⟩
  | _ => simp only [isInternal, Bool.true_eq_false] at h <;> exact .inl rfl

/-- A command that is one of the part's own steps: an internal step, a context-only order, or a granted order. -/
theorem exec_of_internal (c : Instr) (s : State) (h : isInternal c = true) :
    (∃ i, exec c s = .next (stepWhen (isDue i s) (runInternal i) s)) ∨
      (∃ kind ch, exec c s = .next (contextCommand kind ch s)) ∨
      ∃ kind ch, exec c s = .next (grantedCommand kind ch s) := by
  cases c with
  | restoreStep => exact .inl ⟨.restore, rfl⟩
  | arbiterGrant => exact .inl ⟨.grant, rfl⟩
  | spanRender => exact .inl ⟨.render, rfl⟩
  | droppedRowHandling ch => exact .inl ⟨.droppedRow ch, rfl⟩
  | nop ch | move ch | newline ch | margin ch | mode ch | clip ch => exact .inr (.inl ⟨_, ch, rfl⟩)
  | dot ch | line ch | block ch | raster ch | text ch | glyph ch | wipe ch | pass ch | repaint ch | take ch | give ch
  | area ch | lock ch | route ch | timing ch => exact .inr (.inr ⟨_, ch, rfl⟩)
  | _ => simp only [isInternal, Bool.false_eq_true] at h

/-- Whether a step is due does not depend on the event in progress. -/
theorem isDue_withEvent (i : Internal) (s : State) (e : Option Before) : isDue i (s.withEvent e) = isDue i s := by
  cases i with
  | decode ch | droppedRow ch => cases ch <;> rfl
  | _ => rfl

/-- The start of an order is its channel's decoder step, where that is due. -/
theorem startOrder_cases (kind : OrderKind) (ch : Channel) (s : State) :
    startOrder kind ch s = s ∨
      isDue (.decode ch) s = true ∧ startOrder kind ch s = runInternal (.decode ch) s := by
  unfold startOrder
  split
  · rename_i reached
    exact .inr ⟨((Bool.and_eq_true _ _).mp reached).1, rfl⟩
  · exact .inl rfl

/-- The grant of an order's piece is the arbiter's grant, where that is due. -/
theorem grantOrder_cases (kind : OrderKind) (ch : Channel) (s : State) :
    grantOrder kind ch s = s ∨ isDue .grant s = true ∧ grantOrder kind ch s = runInternal .grant s := by
  unfold grantOrder
  split
  · rename_i granted
    have chosen : grantee s = some ch := eq_of_beq ((Bool.and_eq_true _ _).mp granted).1
    exact .inr ⟨by simp only [isDue, chosen, Option.isSome_some], by simp only [runInternal, grantStep, chosen]⟩
  · exact .inl rfl

/-! ### The timers -/

/-- A timer of the block runs down by one quarter, or the sustain cycle moves on by one, with no event at it. -/
inductive RunsDown (s : State) : State → Prop
  | cycle (c : Cycle) (h : s.sustain.cycle = some c) :
    RunsDown s (s.withSustain { s.sustain with cycle := some { c with place := c.place + 1 } })
  | settle (n : Nat) (h : s.sustain.settle = some n) :
    RunsDown s (s.withSustain { s.sustain with settle := some (n - 1) })
  | program (p : Programming) (h : s.station.programming = some p) :
    RunsDown s (s.withStation { s.station with programming := some { p with left := p.left - 1 } })
  | scan (n : Nat) (h : s.touch.timer = some n) : RunsDown s (s.withTouch { s.touch with timer := some (n - 1) })
  | turnaround (n : Nat) (h : s.lineIf.reply = .turnaround n) :
    RunsDown s (s.withLineIf { s.lineIf with reply := .turnaround (n - 1) })
  | sending (bytes : List Byte) (n : Nat) (h : s.lineIf.reply = .sending bytes n) :
    RunsDown s (s.withLineIf { s.lineIf with reply := .sending bytes (n - 1) })

/-! ### The induction over a step -/

/-- What a step is made of keeps `P`: the queue and the note of the event in progress, the end of an event, the part's own
steps that are due, the direct effects of commands, and the timers. -/
structure KeptByParts (P : State → Prop) : Prop where
  queue : ∀ s q, P s → P (s.withPending q)
  event : ∀ s e, P s → P (s.withEvent e)
  ends : ∀ s, P s → P (endEvent s)
  own : ∀ s i, P s → isDue i s = true → P (runInternal i s)
  direct : ∀ s c, P s → isInternal c = false → P (directEffect c s)
  runsDown : ∀ s t, P s → RunsDown s t → P t

namespace KeptByParts

variable {P : State → Prop} (H : KeptByParts P)
include H

theorem goesOn (s : State) (h : P s) : P (goOn s) := H.event s _ h

theorem begins (s : State) (h : P s) : P (beginEvent s) := by
  rw [beginEvent_eq]
  exact H.event s _ h

theorem finish (s : State) (h : P s) : P (Machine.finish s) := finish_induction P H.goesOn H.own H.ends s h

theorem closes (s : State) (h : P s) : P (closeEvent s) := closeEvent_induction P H.ends s h

theorem atEvent (c : Instr) (hc : isInternal c = false) (s : State) (h : P s) :
    P (Machine.atEvent (directEffect c) s) :=
  atEvent_induction P _ H.goesOn H.own H.ends H.begins (fun s hs => H.direct s c hs hc) s h

theorem atPress (c : Instr) (hc : isInternal c = false) (s : State) (h : P s) :
    P (Machine.atPress (directEffect c) s) :=
  atPress_induction P _ H.goesOn H.own H.ends H.begins (fun s hs => H.direct s c hs hc) s h

theorem ownStep (i : Internal) (s : State) (h : P s) : P (stepWhen (isDue i s) (runInternal i) s) := by
  cases due : isDue i s with
  | false => exact h
  | true =>
    refine H.closes _ (H.own _ i (H.begins s h) ?_)
    rw [beginEvent_eq, isDue_withEvent, due]

theorem startOrder (kind : OrderKind) (ch : Channel) (s : State) (h : P s) : P (Machine.startOrder kind ch s) := by
  rcases startOrder_cases kind ch s with e | ⟨due, e⟩ <;> rw [e]
  · exact h
  · exact H.own s _ h due

theorem grantOrder (kind : OrderKind) (ch : Channel) (s : State) (h : P s) : P (Machine.grantOrder kind ch s) := by
  rcases grantOrder_cases kind ch s with e | ⟨due, e⟩ <;> rw [e]
  · exact h
  · exact H.own s _ h due

theorem contextCommand (kind : OrderKind) (ch : Channel) (s : State) (h : P s) :
    P (Machine.contextCommand kind ch s) := by
  unfold Machine.contextCommand
  cases reached : orderReached kind ch s with
  | false => exact h
  | true =>
    have due : isDue (.decode ch) s = true := ((Bool.and_eq_true _ _).mp reached).1
    have step := H.ownStep (.decode ch) s h
    rw [due] at step
    exact step

theorem grantedCommand (kind : OrderKind) (ch : Channel) (s : State) (h : P s) :
    P (Machine.grantedCommand kind ch s) := by
  unfold Machine.grantedCommand
  cases orderReached kind ch s || orderGranted kind ch s with
  | false => exact h
  | true => exact H.closes _ (H.grantOrder kind ch _ (H.startOrder kind ch _ (H.begins s h)))

/-- What every part of a step keeps, every command keeps. -/
theorem exec (c : Instr) (s t : State) (h : P s) (e : Machine.exec c s = .next t) : P t := by
  cases hc : isInternal c with
  | false =>
    rcases exec_of_outside c s hc with e' | ⟨-, -, -, e'⟩ <;> rw [e'] at e <;> cases e
    · exact H.atEvent c hc s h
    · exact H.atPress c hc s h
  | true =>
    rcases exec_of_internal c s hc with ⟨i, e'⟩ | ⟨kind, ch, e'⟩ | ⟨kind, ch, e'⟩ <;> rw [e'] at e <;> cases e
    · exact H.ownStep i s h
    · exact H.contextCommand kind ch s h
    · exact H.grantedCommand kind ch s h

theorem tickCycle (s : State) (h : P s) : P (Machine.tickCycle s) := by
  unfold Machine.tickCycle
  split
  · exact h
  · rename_i c running
    have moved := H.runsDown s _ h (.cycle c running)
    dsimp only
    split
    · split
      · exact H.atEvent .addressWindow rfl s h
      · exact moved
    · split
      · exact H.atEvent .cycleStart rfl s h
      · exact moved

theorem tickSettle (s : State) (h : P s) : P (Machine.tickSettle s) := by
  unfold Machine.tickSettle
  split
  · exact h
  · rename_i n running
    split
    · exact H.atEvent .settleTimerExpiry rfl s h
    · exact H.runsDown s _ h (.settle n running)

theorem tickProgram (s : State) (h : P s) : P (Machine.tickProgram s) := by
  unfold Machine.tickProgram
  split
  · exact h
  · rename_i p running
    split
    · exact H.atEvent .programmingOperationEnd rfl s h
    · exact H.runsDown s _ h (.program p running)

theorem tickScan (s : State) (h : P s) : P (Machine.tickScan s) := by
  unfold Machine.tickScan
  split
  · exact h
  · rename_i n running
    split
    · exact H.atPress (.scanEvent s.touch.horizontal s.touch.vertical) rfl s h
    · exact H.runsDown s _ h (.scan n running)

theorem tickReply (s : State) (h : P s) : P (Machine.tickReply s) := by
  unfold Machine.tickReply
  split
  · exact h
  · rename_i n running
    split
    · exact H.atEvent .turnaroundGapExpiry rfl s h
    · exact H.runsDown s _ h (.turnaround n running)
  · rename_i bytes n running
    split
    · exact H.atEvent .replySent rfl s h
    · exact H.runsDown s _ h (.sending bytes n running)

theorem tick (s : State) (h : P s) : P (Machine.tick s) :=
  H.tickReply _ (H.tickScan _ (H.tickProgram _ (H.tickSettle _ (H.tickCycle s h))))

theorem idleStep (s : State) (h : P s) : P (Machine.idleStep s) := by
  unfold Machine.idleStep
  split
  · rename_i i chosen
    have step := H.ownStep i s h
    rw [dueStep_isDue s i chosen] at step
    exact step
  · exact H.tick _ (H.finish s h)

/-- What every part of a step keeps, every step keeps. -/
theorem step (s t : State) (h : P s) (e : Machine.step s = .next t) : P t := by
  unfold Machine.step at e
  split at e
  · cases e
    exact H.idleStep s h
  · exact H.exec _ _ t (H.queue s _ h) e

end KeptByParts

end Sys2Proof.Machine
end

section
/-! PROOFS. The canonical form of the addressed stores: what leaves the stores alone, and what each writer of them keeps. -/

namespace Sys2Proof.Machine

/-- The stores hold their canonical form, and a running operation names a programmable field: `MemoryWf` and `ProgramWf`
store by store. -/
structure StoresSound (s : State) : Prop where
  shadow : TableWf 0 16384 s.engine.shadow
  glyphs : TableWf 0 4096 s.engine.glyphs
  lit : TableWf 0 16384 s.panel.lit
  stale : TableWf .coherent 512 s.tracker.stale
  cells : TableWf 0 9 s.station.cells
  committed : TableWf false 9 s.station.committed
  program : ProgramWf s

theorem storesSound_iff (s : State) : StoresSound s ↔ MemoryWf s ∧ ProgramWf s := by
  constructor
  · rintro ⟨shadow, glyphs, lit, stale, cells, committed, program⟩
    exact ⟨⟨shadow, glyphs, lit, stale, cells, committed⟩, program⟩
  · rintro ⟨⟨shadow, glyphs, lit, stale, cells, committed⟩, program⟩
    exact ⟨shadow, glyphs, lit, stale, cells, committed, program⟩

/-- The addressed stores and the station record are the same in both states. -/
structure SameStores (s t : State) : Prop where
  shadow : t.engine.shadow = s.engine.shadow
  glyphs : t.engine.glyphs = s.engine.glyphs
  lit : t.panel.lit = s.panel.lit
  stale : t.tracker.stale = s.tracker.stale
  station : t.station = s.station

/-- Changing no block in which a store lies leaves the stores alone. -/
theorem SameStores.of_blocks {s t : State} (engine : t.engine = s.engine) (panel : t.panel = s.panel)
    (tracker : t.tracker = s.tracker) (station : t.station = s.station) : SameStores s t :=
  ⟨by rw [engine], by rw [engine], by rw [panel], by rw [tracker], station⟩

theorem StoresSound.of_same {s t : State} (h : StoresSound s) (same : SameStores s t) : StoresSound t := by
  rw [storesSound_iff] at *
  unfold MemoryWf ProgramWf at *
  rw [same.shadow, same.glyphs, same.lit, same.stale, same.station]
  exact h

/-- A change of the engine alone keeps the form when it keeps that of the shadow image and the glyph memory. -/
theorem StoresSound.of_engine {s t : State} (h : StoresSound s) (shadow : TableWf 0 16384 t.engine.shadow)
    (glyphs : TableWf 0 4096 t.engine.glyphs) (panel : t.panel = s.panel) (tracker : t.tracker = s.tracker)
    (station : t.station = s.station) : StoresSound t := by
  have written : StoresSound (s.withEngine t.engine) := { h with shadow := shadow, glyphs := glyphs }
  exact written.of_same (.of_blocks rfl panel tracker station)

/-- A change of the tracker alone keeps the form when it keeps that of the stale-row table. -/
theorem StoresSound.of_tracker {s t : State} (h : StoresSound s) (stale : TableWf .coherent 512 t.tracker.stale)
    (engine : t.engine = s.engine) (panel : t.panel = s.panel) (station : t.station = s.station) : StoresSound t := by
  have written : StoresSound (s.withTracker t.tracker) := { h with stale := stale }
  exact written.of_same (.of_blocks engine panel rfl station)

theorem StoresSound.withStale {s : State} (h : StoresSound s) (stale : List (Nat × StaleKind)) (scanner : Scanner)
    (wf : TableWf .coherent 512 stale) : StoresSound (s.withTracker { stale := stale, scanner := scanner }) :=
  { h with stale := wf }

/-! ### The engine, the tracker and the sustain -/

theorem drawSpan_glyphs (h : Held) (s : State) : (drawSpan h s).engine.glyphs = s.engine.glyphs := by
  rcases drawSpan_cases h s with ⟨-, e⟩ | ⟨-, e, -⟩ <;> rw [e]

theorem renderSpan_storesSound (h : Held) (s : State) (hs : StoresSound s) : StoresSound (renderSpan h s) := by
  refine hs.of_engine (renderSpan_wf h s hs.shadow) ?_ (by simp) (by simp) (by simp)
  rw [renderSpan_engine]
  simpa only [drawSpan_glyphs] using hs.glyphs

theorem renderHeld_storesSound (s : State) (hs : StoresSound s) : StoresSound (renderHeld s) := by
  unfold renderHeld
  split
  · exact hs
  · exact renderSpan_storesSound _ s hs

theorem takeRow_storesSound (s : State) (hs : StoresSound s) : StoresSound (takeRow s) :=
  hs.of_tracker (takeRow_wf s hs.stale) (by simp) (by simp) (by simp)

theorem activateScanner_storesSound (s : State) (hs : StoresSound s) : StoresSound (activateScanner s) := by
  unfold activateScanner
  split
  · exact hs
  · exact takeRow_storesSound _ { hs with }

theorem restoreStep_storesSound (s : State) (hs : StoresSound s) : StoresSound (restoreStep s) := by
  unfold restoreStep
  split
  · exact hs
  · exact takeRow_storesSound _ { hs with }

theorem startWhenReady_storesSound (s : State) (hs : StoresSound s) : StoresSound (startWhenReady s) := by
  unfold startWhenReady
  split
  · exact { hs with lit := panelStarted_wf s.panel }
  · exact hs

theorem lostTracker_wf : TableWf .coherent 512 lostTracker.stale := by
  have blank : lostTracker.stale = allBlank := by simp only [lostTracker]
  rw [blank]
  exact allBlank_wf

theorem enterDark_storesSound (s : State) (hs : StoresSound s) : StoresSound (enterDark s) :=
  { hs with lit := tableWf_nil _ _, stale := lostTracker_wf }

theorem lose_storesSound (s : State) (hs : StoresSound s) : StoresSound (lose s) := by
  rcases lose_cases s with ⟨-, e⟩ | ⟨-, e⟩ <;> rw [e]
  · exact hs
  · exact renderHeld_storesSound _ { enterDark_storesSound s hs with }

/-! ### Units and grants -/

theorem glyphUnit_storesSound (ch : Channel) (slot : Byte) (s : State) (hs : StoresSound s) :
    StoresSound (glyphUnit ch slot s) := by
  have frame : (glyphUnit ch slot s).engine.shadow = s.engine.shadow ∧ (glyphUnit ch slot s).panel = s.panel ∧
      (glyphUnit ch slot s).tracker = s.tracker ∧ (glyphUnit ch slot s).station = s.station := by
    unfold glyphUnit
    split <;> simp
  obtain ⟨shadow, panel, tracker, station⟩ := frame
  exact hs.of_engine (shadow ▸ hs.shadow) (glyphUnit_wf ch slot s hs.glyphs) panel tracker station

theorem fullWipe_storesSound (s : State) (hs : StoresSound s) : StoresSound (fullWipe s) := by
  unfold fullWipe
  split
  · exact { hs with shadow := tableWf_nil _ _, stale := tableWf_nil _ _ }
  · exact { hs with shadow := tableWf_nil _ _ }

theorem withChan_storesSound (ch : Channel) (c : Chan) (s : State) (hs : StoresSound s) :
    StoresSound (s.withChan ch c) :=
  hs.of_same (by constructor <;> simp)

theorem completeOrder_storesSound (ch : Channel) (s : State) (hs : StoresSound s) : StoresSound (completeOrder ch s) :=
  withChan_storesSound ch _ s hs

theorem wipeUnit_storesSound (ch : Channel) (s : State) (hs : StoresSound s) : StoresSound (wipeUnit ch s) := by
  unfold wipeUnit
  split
  · exact withChan_storesSound ch _ s hs
  · exact completeOrder_storesSound ch _ (fullWipe_storesSound s hs)

theorem passUnit_storesSound (ch : Channel) (payload : BitVec 12) (s : State) (hs : StoresSound s) :
    StoresSound (passUnit ch payload s) := by
  unfold passUnit
  split
  · exact completeOrder_storesSound _ _ (hs.of_same (by constructor <;> simp))
  · exact completeOrder_storesSound _ _ (hs.of_same (by constructor <;> simp))

theorem repaintUnit_storesSound (ch : Channel) (s : State) (hs : StoresSound s) : StoresSound (repaintUnit ch s) := by
  unfold repaintUnit
  refine completeOrder_storesSound ch _ ?_
  split
  · exact activateScanner_storesSound _ (hs.withStale _ _ (repaintedTable_wf s.tracker))
  · exact hs

theorem superviseEffect_storesSound (f : Supervise) (s : State) (hs : StoresSound s) :
    StoresSound (superviseEffect f s) := by
  cases f with
  | take => exact hs.of_same (by constructor <;> simp [superviseEffect])
  | give => exact hs.of_same (by constructor <;> simp [superviseEffect])
  | area | lock | route | timing => exact { hs with }

theorem carryUnit_storesSound (ch : Channel) (s : State) (hs : StoresSound s) : StoresSound (carryUnit ch s) := by
  unfold carryUnit
  split
  · exact glyphUnit_storesSound ch _ s hs
  · exact wipeUnit_storesSound ch s hs
  · exact passUnit_storesSound ch _ s hs
  · exact completeOrder_storesSound ch _ (superviseEffect_storesSound _ s hs)
  · exact repaintUnit_storesSound ch s hs
  · exact hs

theorem placeSpan_storesSound (h : Held) (s : State) (hs : StoresSound s) : StoresSound (placeSpan h s) := by
  rcases placeSpan_cases h s with ⟨-, e⟩ | ⟨-, e⟩ <;> rw [e]
  · exact renderSpan_storesSound h s hs
  · exact { hs with }

theorem grantTo_storesSound (ch : Channel) (s : State) (hs : StoresSound s) : StoresSound (grantTo ch s) := by
  have named : StoresSound (s.withEngine { s.engine with arbiter := ch }) := { hs with }
  rcases grantTo_cases ch s with ⟨-, e⟩ | ⟨-, -, e⟩ | ⟨-, p, c, -, e⟩ <;> rw [e]
  · exact carryUnit_storesSound ch _ named
  · exact named
  · exact placeSpan_storesSound _ _ (withChan_storesSound ch c _ named)

theorem grantStep_storesSound (s : State) (hs : StoresSound s) : StoresSound (grantStep s) := by
  unfold grantStep
  split
  · exact hs
  · exact grantTo_storesSound _ s hs

theorem runInternal_storesSound (i : Internal) (s : State) (hs : StoresSound s) : StoresSound (runInternal i s) := by
  cases i with
  | decode ch => exact hs.of_same (by constructor <;> simp [runInternal])
  | droppedRow ch => exact withChan_storesSound ch _ s hs
  | render => exact renderHeld_storesSound s hs
  | grant => exact grantStep_storesSound s hs
  | grantLine => exact grantTo_storesSound .lineCh s hs
  | restore => exact restoreStep_storesSound s hs

end Sys2Proof.Machine
end

section
/-! PROOFS. What the direct effects of the commands keep of the addressed stores, and the settled invariant. -/

namespace Sys2Proof.Machine

/-! ### The resets and the supply -/

theorem supplyBelow_storesSound (s : State) (hs : StoresSound s) : StoresSound (supplyBelow s) := by
  unfold supplyBelow
  split
  · exact hs
  · exact { hs with }
  · exact lose_storesSound _ { hs with }

theorem compareSupply_storesSound (s : State) (hs : StoresSound s) : StoresSound (compareSupply s) := by
  unfold compareSupply
  split
  · exact supplyBelow_storesSound s hs
  · split
    · exact hs.of_same (by constructor <;> simp)
    · exact hs

theorem startRunning_storesSound (s : State) (hs : StoresSound s) : StoresSound (startRunning s) :=
  compareSupply_storesSound _ { hs with }

theorem resetBlocks_storesSound (s : State) (hs : StoresSound s) : StoresSound (resetBlocks s) := by
  have blank : (resetBlocks s).tracker.stale = allBlank := by simp only [resetBlocks, State.reset]
  exact ⟨hs.shadow, hs.glyphs, tableWf_nil _ _, blank ▸ allBlank_wf, hs.cells, hs.committed, trivial⟩

theorem powerOn_storesSound (s : State) (hs : StoresSound s) : StoresSound (powerOn s) := by
  have empty := resetBlocks_storesSound s hs
  exact startRunning_storesSound _ { empty with shadow := tableWf_nil _ _, glyphs := tableWf_nil _ _ }

theorem releaseReset_storesSound (s : State) (hs : StoresSound s) : StoresSound (releaseReset s) := by
  unfold releaseReset
  split
  · exact startRunning_storesSound _ { hs with }
  · exact hs

theorem supplyMoves_storesSound (millivolts : Nat) (s : State) (hs : StoresSound s) :
    StoresSound (supplyMoves millivolts s) := by
  have moved : StoresSound (s.withSustain { s.sustain with supply := millivolts }) := { hs with }
  unfold supplyMoves
  dsimp only
  split
  · exact moved
  · exact compareSupply_storesSound _ moved

theorem settleExpires_storesSound (s : State) (hs : StoresSound s) : StoresSound (settleExpires s) := by
  unfold settleExpires
  split
  · exact startWhenReady_storesSound _ { hs with }
  · exact hs

/-! ### The sustain -/

theorem cycleStarts_storesSound (s : State) (hs : StoresSound s) : StoresSound (cycleStarts s) := by
  unfold cycleStarts
  split
  · exact hs
  · split
    · exact lose_storesSound s hs
    · exact { hs with }

theorem primingWindow_storesSound (s : State) (hs : StoresSound s) : StoresSound (primingWindow s) :=
  activateScanner_storesSound _ { hs with lit := tableWf_nil _ _ }

theorem liveWindow_storesSound (s : State) (hs : StoresSound s) : StoresSound (liveWindow s) := by
  unfold liveWindow
  split
  · exact { hs with }
  · exact { hs with lit := applyItem_wf _ _ hs.lit }

theorem windowOpens_storesSound (s : State) (hs : StoresSound s) : StoresSound (windowOpens s) := by
  unfold windowOpens
  split
  · exact hs
  · split
    · exact hs
    · exact primingWindow_storesSound s hs
    · exact liveWindow_storesSound s hs

/-! ### The port and the touch panel -/

theorem whenTaken_storesSound (f : State → State) (s : State) (hs : StoresSound s) (hf : StoresSound (f s)) :
    StoresSound (whenTaken f s) := by
  unfold whenTaken
  split
  · exact hs
  · exact hf

theorem freePlaces_storesSound (wasFull : Bool) (s : State) (hs : StoresSound s) : StoresSound (freePlaces wasFull s) := by
  rcases freePlaces_cases wasFull s with e | e <;> rw [e]
  · exact hs
  · exact { hs with }

theorem takeWord_storesSound (w : Word) (s : State) (hs : StoresSound s) : StoresSound (takeWord w s) := by
  unfold takeWord
  split <;> exact { hs with }

theorem readInput_storesSound (s : State) (hs : StoresSound s) : StoresSound (readInput s) := by
  unfold readInput
  dsimp only
  split
  · exact { hs with }
  · exact freePlaces_storesSound _ _ { hs with }

theorem readStatus_storesSound (s : State) (hs : StoresSound s) : StoresSound (readStatus s) := by
  unfold readStatus
  dsimp only
  split <;> exact { hs with }

theorem abandonHeld_storesSound (ch : Channel) (s : State) (hs : StoresSound s) : StoresSound (abandonHeld ch s) := by
  unfold abandonHeld
  split
  · exact hs
  · split
    · exact { hs with }
    · exact hs

theorem clearLocal_storesSound (s : State) (hs : StoresSound s) : StoresSound (clearLocal s) :=
  { abandonHeld_storesSound .localCh s hs with }

theorem resumeLocal_storesSound (s : State) (hs : StoresSound s) : StoresSound (resumeLocal s) := by
  unfold resumeLocal
  split
  · exact { hs with }
  · exact hs

theorem panelOn_storesSound (s : State) (hs : StoresSound s) : StoresSound (panelOn s) :=
  startWhenReady_storesSound _ { hs with }

theorem scan_storesSound (horizontal vertical : BitVec 16) (s : State) (hs : StoresSound s) :
    StoresSound (scan horizontal vertical s) := by
  unfold scan
  dsimp only
  split
  · exact { hs with }
  · split
    · exact { hs with }
    · exact hs.of_same (by constructor <;> simp)

/-! ### The station record -/

/-- A field that can be programmed is one of 0..8 (R137). -/
theorem fieldOpen_le (r : Station) (field : BitVec 4) (h : fieldOpen r field = true) : field.toNat ≤ 8 :=
  of_decide_eq_true ((Bool.and_eq_true _ _).mp h).1

/-- The field that a programming operation names. -/
def programField : Program → Option (BitVec 4)
  | .write field _ => some field
  | .commit field => some field
  | .lock => none

/-- `ProgramWf` as a bound on the field of the running operation. -/
theorem programWf_iff (s : State) :
    ProgramWf s ↔
      ∀ p, s.station.programming = some p → ∀ field, programField p.operation = some field → field.toNat ≤ 8 := by
  unfold ProgramWf
  rcases s.station.programming with - | ⟨operation, left⟩
  · simp
  · cases operation <;> simp [programField]

/-- A request is ignored, or starts its operation on a field that can be programmed (R137). -/
theorem request_cases (operation : Program) (s : State) :
    request operation s = s ∨
      (∀ field, programField operation = some field → fieldOpen s.station field = true) ∧
        request operation s =
          s.withStation
            { s.station with programming := some { operation := operation, left := Config.programQuarters } } := by
  unfold request
  cases operation with
  | write field _ | commit field =>
    dsimp only
    split
    · rename_i starts
      refine .inr ⟨fun f named => ?_, rfl⟩
      cases named
      exact ((Bool.and_eq_true _ _).mp starts).2
    · exact .inl rfl
  | lock =>
    dsimp only
    split
    · exact .inr ⟨fun _ named => (nomatch named), rfl⟩
    · exact .inl rfl

theorem request_storesSound (operation : Program) (s : State) (hs : StoresSound s) :
    StoresSound (request operation s) := by
  rcases request_cases operation s with e | ⟨isOpen, e⟩ <;> rw [e]
  · exact hs
  · refine { hs with program := (programWf_iff _).mpr ?_ }
    intro p started field named
    cases started
    exact fieldOpen_le s.station field (isOpen field named)

theorem programEnds_storesSound (s : State) (hs : StoresSound s) : StoresSound (programEnds s) := by
  unfold programEnds
  split
  · exact hs
  · rename_i p running
    have bounded := (programWf_iff s).mp hs.program p running
    have kept := programmed_wf p.operation s.station hs.cells hs.committed (by
      cases operation : p.operation with
      | lock => trivial
      | write field | commit field => exact bounded field (by rw [operation, programField]))
    have ended : (programmed p.operation s.station).programming = none := by cases p.operation <;> rfl
    refine ⟨hs.shadow, hs.glyphs, hs.lit, hs.stale, kept.1, kept.2, (programWf_iff _).mpr ?_⟩
    intro q still
    rw [State.withStation_station, ended] at still
    cases still

/-! ### The cluster line -/

/-- A change of the line interface alone. -/
theorem withLineIf_storesSound (l : LineInterface) (s : State) (hs : StoresSound s) : StoresSound (s.withLineIf l) :=
  { hs with }

theorem startCharacter_storesSound (low : Nat) (s : State) (hs : StoresSound s) : StoresSound (startCharacter low s) := by
  unfold startCharacter
  split
  · exact hs
  · exact withLineIf_storesSound _ s hs

theorem acceptOrders_storesSound (s : State) (hs : StoresSound s) : StoresSound (acceptOrders s) := by
  unfold acceptOrders
  dsimp only
  split
  · exact withLineIf_storesSound _ s hs
  · split
    · exact withLineIf_storesSound _ s hs
    · exact { hs with }

theorem giveEffect_storesSound (s : State) (hs : StoresSound s) : StoresSound (giveEffect s) :=
  hs.of_same (by constructor <;> simp)

theorem acceptClear_storesSound (s : State) (hs : StoresSound s) : StoresSound (acceptClear s) := by
  have given := giveEffect_storesSound ((abandonHeld .lineCh s).withLineChan (clearedChan .accept))
    { abandonHeld_storesSound .lineCh s hs with }
  exact freePlaces_storesSound _ _ { given with }

theorem checkCharacter_storesSound (r : Reception) (b : Byte) (s : State) (hs : StoresSound s) :
    StoresSound (checkCharacter r b s) := by
  unfold checkCharacter
  split
  · exact withLineIf_storesSound _ s hs
  · split
    · exact acceptOrders_storesSound s hs
    · exact acceptClear_storesSound s hs
    · exact withLineIf_storesSound _ s hs

theorem assemble_storesSound (c : LineChar) (s : State) (hs : StoresSound s) : StoresSound (assemble c s) := by
  unfold assemble
  dsimp only
  split
  · split
    · exact hs
    · exact withLineIf_storesSound _ s hs
  · split
    · exact withLineIf_storesSound _ s hs
    · split <;> exact withLineIf_storesSound _ s hs
  · split
    · exact withLineIf_storesSound _ s hs
    · split <;> exact withLineIf_storesSound _ s hs
  · split
    · exact withLineIf_storesSound _ s hs
    · split
      · exact withLineIf_storesSound _ s hs
      · exact checkCharacter_storesSound _ _ s hs

theorem arrive_storesSound (c : LineChar) (s : State) (hs : StoresSound s) : StoresSound (arrive c s) := by
  unfold arrive
  split
  · exact assemble_storesSound c _ (withLineIf_storesSound _ s hs)
  · exact hs

theorem checkArrives_storesSound (kind : FrameKind) (b : Byte) (s : State) (hs : StoresSound s) :
    StoresSound (checkArrives kind b s) := by
  unfold checkArrives
  split
  · exact arrive_storesSound _ s hs
  · exact hs

theorem composeReply_storesSound (s : State) (hs : StoresSound s) : StoresSound (composeReply s) := by
  unfold composeReply
  split
  · exact freePlaces_storesSound _ _ (withLineIf_storesSound _ s hs)
  · exact hs
  · exact hs

theorem endReply_storesSound (s : State) (hs : StoresSound s) : StoresSound (endReply s) := by
  unfold endReply
  split
  · exact withLineIf_storesSound _ s hs
  · exact hs

theorem lineHigh_storesSound (s : State) (hs : StoresSound s) : StoresSound (lineHigh s) := by
  unfold lineHigh
  split
  · exact withLineIf_storesSound _ s hs
  · exact hs

/-! ### Every step -/

theorem directEffect_storesSound (c : Instr) (s : State) (hs : StoresSound s) : StoresSound (directEffect c s) := by
  have taken := fun f hf => whenTaken_storesSound f s hs hf
  cases c with
  | powerOnReset => exact powerOn_storesSound s hs
  | terminalReset => exact { resetBlocks_storesSound s hs with }
  | terminalResetRelease => exact releaseReset_storesSound s hs
  | supplyDroop millivolts | supplyRecover millivolts => exact supplyMoves_storesSound millivolts s hs
  | settleTimerExpiry => exact settleExpires_storesSound s hs
  | cycleStart => exact cycleStarts_storesSound s hs
  | addressWindow => exact windowOpens_storesSound s hs
  | order word => exact taken _ (takeWord_storesSound word s hs)
  | input => exact readInput_storesSound s hs
  | status => exact readStatus_storesSound s hs
  | clearLocal => exact taken _ (clearLocal_storesSound s hs)
  | resume => exact taken _ (resumeLocal_storesSound s hs)
  | panelOn => exact taken _ (panelOn_storesSound s hs)
  | eventAck | eventEnable | panelOff | recordSelect => exact taken _ { hs with }
  | recordWrite | recordCommit | recordLock => exact taken _ (request_storesSound _ s hs)
  | programmingOperationEnd => exact programEnds_storesSound s hs
  | scanEvent horizontal vertical => exact scan_storesSound horizontal vertical s hs
  | characterStart low => exact startCharacter_storesSound low s hs
  | characterArrival samples => exact arrive_storesSound _ s hs
  | orders check | clear check | poll check => exact checkArrives_storesSound _ check s hs
  | turnaroundGapExpiry => exact composeReply_storesSound s hs
  | replySent => exact endReply_storesSound s hs
  | lineGoesHigh => exact lineHigh_storesSound s hs
  | _ => exact hs

/-- A timer that runs down leaves the stores alone, and a running operation keeps its field. -/
theorem runsDown_storesSound (s t : State) (hs : StoresSound s) (h : RunsDown s t) : StoresSound t := by
  cases h with
  | program p running =>
    refine { hs with program := (programWf_iff _).mpr ?_ }
    intro q left field named
    cases left
    exact (programWf_iff s).mp hs.program p running field named
  | _ => exact { hs with }

theorem storesSound_keptByParts : KeptByParts StoresSound where
  queue _ _ hs := { hs with }
  event _ _ hs := { hs with }
  ends s hs := hs.of_same (by constructor <;> simp)
  own s i hs _ := runInternal_storesSound i s hs
  direct s c hs _ := directEffect_storesSound c s hs
  runsDown := runsDown_storesSound

/-- Settles O58, by the induction over the parts of a step. -/
theorem memoryFormIsKept : Obligations.MemoryFormIsKept := by
  intro s t memory program e
  have sound : StoresSound s := (storesSound_iff s).mpr ⟨memory, program⟩
  exact (storesSound_iff t).mp (storesSound_keptByParts.step s t sound e)

end Sys2Proof.Machine
end

section
/-! PROOFS. Frames: how the parts that change add up along a step, what the beginning and the end of an event change, and which
event a command of the part's own steps is. -/

namespace Sys2Proof.Machine

theorem closeEvent_chan (s : State) (ch : Channel) : (closeEvent s).chan ch = s.chan ch := by
  cases ch <;> simp

theorem beginEvent_chan (s : State) (ch : Channel) : (beginEvent s).chan ch = s.chan ch := by
  rw [beginEvent_eq, State.withEvent_chan]

/-! ### Parts that change -/

theorem SamePart.trans {s t u : State} {p : Part} (h : SamePart s t p) (k : SamePart t u p) : SamePart s u p := by
  cases p <;> simp only [SamePart] at h k ⊢ <;> simp only [k, h, and_self]

theorem OnlyChanges.mono {ps qs : List Part} {s t : State} (h : OnlyChanges ps s t) (sub : ∀ p ∈ ps, p ∈ qs) :
    OnlyChanges qs s t := fun p hp => h p fun hps => hp (sub p hps)

theorem OnlyChanges.trans {ps qs : List Part} {s t u : State} (h : OnlyChanges ps s t) (k : OnlyChanges qs t u) :
    OnlyChanges (ps ++ qs) s u := fun p hp =>
  (h p fun hps => hp (List.mem_append_left _ hps)).trans (k p fun hqs => hp (List.mem_append_right _ hqs))

/-- A part that comes out the same need not be named. -/
theorem OnlyChanges.drop {p : Part} {ps : List Part} {s t : State} (h : OnlyChanges (p :: ps) s t)
    (same : SamePart s t p) : OnlyChanges ps s t := by
  intro q hq
  by_cases e : q = p
  · exact e ▸ same
  · exact h q fun listed => (List.mem_cons.mp listed).elim e hq

theorem onlyChanges_withEvent (s : State) (e : Option Before) : OnlyChanges [] s (s.withEvent e) := by
  intro p _
  cases p <;> simp [SamePart]

theorem onlyChanges_beginEvent (s : State) : OnlyChanges [] s (beginEvent s) := by
  rw [beginEvent_eq]
  exact onlyChanges_withEvent s _

theorem onlyChanges_closeEvent (s : State) : OnlyChanges [.flags] s (closeEvent s) := by
  intro p hp
  cases p <;> simp [SamePart] at hp ⊢

/-! ### Flags -/

/-- A flag that is not raised by comparison is as it was when the event closes, and a flag set stays set. -/
theorem closeEvent_flags (s : State) (f : EventFlag) :
    (f ∉ endFlags → flagSet f (closeEvent s) = flagSet f s) ∧
      (flagSet f s = true → flagSet f (closeEvent s) = true) := by
  rcases closeEvent_cases s with ⟨-, e⟩ | ⟨-, -, e⟩ <;> rw [e]
  · exact ⟨fun _ => rfl, id⟩
  · cases noted : s.event with
    | none => simp only [endEvent, noted, implies_true, imp_self, and_self]
    | some b =>
      rw [endEvent_flags s b noted]
      refine ⟨fun other => ?_, fun set => by simp [set]⟩
      simp only [endFlags, List.mem_cons, List.not_mem_nil, or_false, not_or] at other
      obtain ⟨drained, space, settled⟩ := other
      simp [drained, space, settled]

theorem FlagsAfter.of_flags {s t : State} (h : t.port.flags = s.port.flags) : FlagsAfter [] s t := by
  intro f
  simp [flagSet, h]

/-- The close of an event raises no flag but those raised by comparison. -/
theorem FlagsAfter.closed {raised : List EventFlag} {s t : State} (h : FlagsAfter raised s t) :
    FlagsAfter raised s (closeEvent t) := by
  intro f
  obtain ⟨same, stays⟩ := closeEvent_flags t f
  exact ⟨fun other => (same other).trans ((h f).1 other), fun set => stays ((h f).2 set)⟩

/-! ### The part's own steps as commands -/

@[simp] theorem grantee_withEvent (s : State) (e : Option Before) : grantee (s.withEvent e) = grantee s := rfl

@[simp] theorem grantee_beginEvent (s : State) : grantee (beginEvent s) = grantee s := by
  rw [beginEvent_eq, grantee_withEvent]

/-- A grant is made only while the engine is FREE (R6). -/
theorem held_of_grantee (s : State) (ch : Channel) (h : grantee s = some ch) : s.engine.held = none := by
  cases held : s.engine.held with
  | none => rfl
  | some _ => simp [grantee, held] at h

/-- ARBITER_GRANT is the grant to the channel the arbiter chooses (R6). -/
theorem exec_arbiterGrant (s : State) (ch : Channel) (h : grantee s = some ch) :
    exec .arbiterGrant s = .next (closeEvent (grantTo ch (beginEvent s))) := by
  simp only [exec, execArbiterGrant, h, Option.isSome_some, stepWhen_true, withinEvent, grantStep, grantee_beginEvent]

/-- A channel with an order in progress reaches none (R50). -/
theorem orderReached_of_order (kind : OrderKind) (ch : Channel) (s : State) (o : Order) (h : (s.chan ch).order = some o) :
    orderReached kind ch s = false := by
  simp [orderReached, decodeDue, reached, h]

/-- The command of the order in progress is the grant of its piece, where its channel is the one granted (R6). -/
theorem grantedCommand_of_granted (kind : OrderKind) (ch : Channel) (s : State) (o : Order) (h : Granted ch s o)
    (hk : orderKind o = kind) : grantedCommand kind ch s = closeEvent (grantTo ch (beginEvent s)) := by
  obtain ⟨chosen, carried⟩ := h
  have granted : orderGranted kind ch s = true := by simp [orderGranted, chosen, carried, hk]
  have carried' : ((beginEvent s).chan ch).order = some o := by
    rw [beginEvent_eq, State.withEvent_chan, carried]
  have granted' : orderGranted kind ch (beginEvent s) = true := by simp [orderGranted, chosen, carried', hk]
  have started : startOrder kind ch (beginEvent s) = beginEvent s := by
    simp [startOrder, orderReached_of_order kind ch _ o carried']
  simp only [grantedCommand, granted, Bool.or_true, stepWhen_true, withinEvent, started, grantOrder, granted', if_true]

/-- The command of the order in progress is the grant of its piece, where its channel is the one granted (R6). -/
theorem exec_orderCommand (ch : Channel) (s : State) (o : Order) (h : Granted ch s o) :
    exec (orderCommand ch (orderKind o)) s = .next (closeEvent (grantTo ch (beginEvent s))) := by
  rw [← grantedCommand_of_granted (orderKind o) ch s o h rfl]
  cases o with
  | supervise f => cases f <;> rfl
  | _ => rfl

/-- SPAN_RENDER is the render of the held span, where the render condition holds (R7). -/
theorem exec_spanRender (s : State) (h : Held) (held : s.engine.held = some h) (due : renderCondition s h = true) :
    exec .spanRender s = .next (closeEvent (renderSpan h (beginEvent s))) := by
  have held' : (beginEvent s).engine.held = some h := by rw [beginEvent_eq, State.withEvent_engine, held]
  simp only [exec, execSpanRender, renderDue, held, due, stepWhen_true, withinEvent, renderHeld, held']

end Sys2Proof.Machine
end

section
/-! PROOFS. Drawing: what a span's clipping, combine and strikes read, and the shadow image and the strike queue after its
render. -/

namespace Sys2Proof.Machine

/-! ### What drawing reads -/

/-- Everything that the drawing of a span of channel `ch` reads is the same in both states. -/
structure SameDrawing (ch : Channel) (s t : State) : Prop where
  shadow : t.engine.shadow = s.engine.shadow
  strikes : t.strikes = s.strikes
  tracker : t.tracker = s.tracker
  area : t.supervision.area = s.supervision.area
  context : (t.chan ch).context = (s.chan ch).context

namespace SameDrawing

variable {s t : State}

theorem trans {ch : Channel} {u : State} (h : SameDrawing ch s t) (k : SameDrawing ch t u) : SameDrawing ch s u :=
  ⟨k.shadow.trans h.shadow, k.strikes.trans h.strikes, k.tracker.trans h.tracker, k.area.trans h.area,
    k.context.trans h.context⟩

theorem withEvent (ch : Channel) (s : State) (e : Option Before) : SameDrawing ch s (s.withEvent e) :=
  ⟨rfl, rfl, rfl, rfl, by rw [State.withEvent_chan]⟩

theorem beginEvent (ch : Channel) (s : State) : SameDrawing ch s (Machine.beginEvent s) := by
  rw [beginEvent_eq]
  exact withEvent ch s _

theorem shadowAt {ch : Channel} (h : SameDrawing ch s t) (y : Coord) (g : Group) :
    Machine.shadowAt t y g = Machine.shadowAt s y g := by
  rw [Machine.shadowAt, h.shadow, Machine.shadowAt]

theorem isStale {ch : Channel} (h : SameDrawing ch s t) (y : Coord) : Machine.isStale t y = Machine.isStale s y := by
  rw [Machine.isStale, staleAt, h.tracker, Machine.isStale, staleAt]

theorem mayDraw {ch : Channel} (h : SameDrawing ch s t) (x y : Nat) :
    Machine.mayDraw t ch x y = Machine.mayDraw s ch x y := by
  rw [Machine.mayDraw, h.context, h.area, Machine.mayDraw]

theorem clippedBox {ch : Channel} (h : SameDrawing ch s t) (p : Span) :
    Machine.clippedBox t ch p = Machine.clippedBox s ch p := by
  unfold Machine.clippedBox
  rw [h.context, h.area]

theorem spanMode {ch : Channel} (h : SameDrawing ch s t) (p : Span) :
    Machine.spanMode t ch p = Machine.spanMode s ch p := by
  rw [Machine.spanMode, h.context, Machine.spanMode]

theorem renderCondition {h : Held} (same : SameDrawing h.channel s t) :
    Machine.renderCondition t h = Machine.renderCondition s h := by
  unfold Machine.renderCondition needsRoom engineServed strikeFree scannerClaims
  rw [same.isStale, same.clippedBox, same.strikes, same.tracker]

theorem spanDrawn {h : Held} {u : State} (same : SameDrawing h.channel s t) (drawn : SpanDrawn t u h) :
    SpanDrawn s u h := by
  simpa only [SpanDrawn, ShadowDrawn, shadowCell, same.shadowAt, same.mayDraw, same.spanMode, same.clippedBox,
    same.isStale, same.strikes] using drawn

end SameDrawing

/-- That a span has been drawn shows in the shadow image and the strike queue alone. -/
theorem SpanDrawn.of_result {s t u : State} {h : Held} (drawn : SpanDrawn s t h)
    (shadow : u.engine.shadow = t.engine.shadow) (strikes : u.strikes = t.strikes) : SpanDrawn s u h := by
  simpa only [SpanDrawn, ShadowDrawn, shadowCell, shadowAt, shadow, strikes] using drawn

theorem SpanDrawn.closed {s t : State} {h : Held} (drawn : SpanDrawn s t h) : SpanDrawn s (closeEvent t) h :=
  drawn.of_result (by simp) (by simp)

/-! ### The new shadow set -/

/-- The new shadow set cell by cell (R10, R11). -/
theorem newCells_getLsbD (s : State) (ch : Channel) (p : Span) (k : Nat) (hk : k < 16) :
    let inBox := p.box.getLsbD k && mayDraw s ch (16 * p.group.val + k) p.row.val
    (newCells s ch p).getLsbD k =
      drawnCell (spanMode s ch p) (shadowCell s p.row p.group k) inBox (inBox && p.on.getLsbD k) := by
  intro inBox
  have box : (clippedBox s ch p).getLsbD k = inBox := clippedBox_getLsbD s ch p k hk
  have on : (p.on &&& clippedBox s ch p).getLsbD k = (inBox && p.on.getLsbD k) := by
    rw [BitVec.getLsbD_and, box, Bool.and_comm]
  rw [newCells, combine_getLsbD _ _ _ _ k hk, box, on, shadowCell]
  rw [box, on]
  exact fun both => ((Bool.and_eq_true _ _).mp both).1

/-- A cell that its clipped box leaves out is drawn as it was (R11). -/
theorem drawnCell_outside (mode : Mode) (old : Bool) : drawnCell mode old false false = old := by
  cases mode <;> simp [drawnCell]

/-- An empty clipped box leaves the shadow set as it is (R10). -/
theorem newCells_of_empty (s : State) (ch : Channel) (p : Span) (h : clippedBox s ch p = 0) :
    newCells s ch p = shadowAt s p.row p.group := by
  refine BitVec.eq_of_getLsbD_eq fun k hk => ?_
  have out : (p.box.getLsbD k && mayDraw s ch (16 * p.group.val + k) p.row.val) = false := by
    rw [← clippedBox_getLsbD s ch p k hk, h]
    exact BitVec.getLsbD_zero
  simp only [newCells_getLsbD s ch p k hk, out, Bool.false_and, drawnCell_outside, shadowCell]

/-! ### The render of a span -/

/-- The shadow image after a span is drawn: the new set in its row-group, the old one elsewhere (R10, R11). -/
theorem shadowAt_drawSpan (h : Held) (s : State) (wf : TableWf 0 16384 s.engine.shadow) (y : Coord) (g : Group) :
    shadowAt (drawSpan h s) y g =
      if y = h.span.row ∧ g = h.span.group then newCells s h.channel h.span else shadowAt s y g := by
  rcases drawSpan_cases h s with ⟨empty, e⟩ | ⟨-, engine, -⟩
  · rw [e, newCells_of_empty s h.channel h.span empty]
    split
    · rename_i here
      rw [here.1, here.2]
    · rfl
  · rw [shadowAt, engine]
    exact shadow_set s _ _ _ _ _ wf

/-- Drawing replaces the shadow image alone of the engine. -/
theorem drawSpan_engine (h : Held) (s : State) :
    (drawSpan h s).engine = { s.engine with shadow := (drawSpan h s).engine.shadow } := by
  rcases drawSpan_cases h s with ⟨-, e⟩ | ⟨-, e, -⟩ <;> rw [e]

/-- A span that is drawn has its cells clipped and combined and its strikes handed over (R10 to R13). -/
theorem drawSpan_spanDrawn (h : Held) (s : State) (wf : TableWf 0 16384 s.engine.shadow) :
    SpanDrawn s (drawSpan h s) h := by
  have shadow := shadowAt_drawSpan h s wf
  refine ⟨fun y g k hk => ?_, ?_⟩
  · rw [shadowCell, shadow y g]
    split
    · rename_i here
      obtain ⟨rfl, rfl⟩ := here
      exact newCells_getLsbD s h.channel h.span k hk
    · rfl
  · have new : shadowAt (drawSpan h s) h.span.row h.span.group = newCells s h.channel h.span := by
      rw [shadow, if_pos ⟨rfl, rfl⟩]
    rw [new]
    rcases drawSpan_cases h s with ⟨empty, e⟩ | ⟨nonempty, -, ⟨stale, e⟩ | ⟨fresh, e⟩⟩ <;> rw [e]
    · rw [if_pos (.inl empty)]
    · rw [if_pos (.inr stale)]
    · rw [if_neg (not_or.mpr ⟨nonempty, by simp [fresh]⟩)]
      rfl

theorem renderSpan_spanDrawn (h : Held) (s : State) (wf : TableWf 0 16384 s.engine.shadow) :
    SpanDrawn s (renderSpan h s) h :=
  (drawSpan_spanDrawn h s wf).of_result (by rw [renderSpan_engine]) (renderSpan_strikes h s)

/-- What the render of a span changes. -/
theorem renderSpan_onlyChanges (h : Held) (s : State) :
    OnlyChanges [.shadow, .held, .items, .turn, chanPart h.channel] s (renderSpan h s) := by
  obtain ⟨-, other⟩ := renderSpan_chan h s
  have engine : (renderSpan h s).engine =
      { s.engine with shadow := (drawSpan h s).engine.shadow, held := none } := by
    rw [renderSpan_engine, drawSpan_engine]
  have line : h.channel = .localCh → (renderSpan h s).lineChan = s.lineChan := fun e => other .lineCh (by simp [e])
  have loc : h.channel = .lineCh → (renderSpan h s).localChan = s.localChan := fun e => other .localCh (by simp [e])
  intro p hp
  cases hc : h.channel <;> cases p <;> simp [SamePart, chanPart, hc, engine, line, loc] at hp ⊢

/-- Settles O6: the command is the render of the held span and then the close of the event. -/
theorem heldSpanRenders : Obligations.HeldSpanRenders := by
  intro s h wf held due
  have same := SameDrawing.beginEvent h.channel s
  have wf' : TableWf 0 16384 (beginEvent s).engine.shadow := same.shadow ▸ wf.1
  have after : (closeEvent (renderSpan h (beginEvent s))).chan h.channel = spanRendered (s.chan h.channel) := by
    rw [closeEvent_chan, (renderSpan_chan h _).1, beginEvent_chan]
  refine ⟨_, exec_spanRender s h held due, (same.spanDrawn (renderSpan_spanDrawn h _ wf')).closed, ?_, after, ?_, ?_, ?_⟩
  · simp [renderSpan_engine]
  · rw [after]
    exact spanRendered_progressed _
  · have frame := ((onlyChanges_beginEvent s).trans (renderSpan_onlyChanges h _)).trans (onlyChanges_closeEvent _)
    exact frame.mono (by cases h.channel <;> decide)
  · exact (FlagsAfter.of_flags (by simp [beginEvent_eq])).closed

end Sys2Proof.Machine
end

section
/-! PROOFS. Grants: the arbiter's choice and its memory, what a unit leaves of the engine, and the span granted and placed. -/

namespace Sys2Proof.Machine

/-! ### The arbiter -/

/-- The arbiter's table of a FREE engine (R6). -/
theorem grantee_of_free (s : State) (free : s.engine.held = none) :
    grantee s =
      if presents s .lineCh then if presents s .localCh then some (otherChannel s.engine.arbiter) else some .lineCh
      else if presents s .localCh then some .localCh else none := by
  unfold grantee
  rw [free]
  cases presents s .lineCh <;> cases presents s .localCh <;> rfl

/-- Only a channel that presents a piece is granted (R4, R6). -/
theorem presents_of_grantee (s : State) (ch : Channel) (h : grantee s = some ch) : presents s ch = true := by
  rw [grantee_of_free s (held_of_grantee s ch h)] at h
  split at h
  · split at h
    · cases ch <;> assumption
    · cases h
      assumption
  · split at h
    · cases h
      assumption
    · cases h

theorem otherChannel_ne (ch : Channel) : otherChannel ch ≠ ch := by cases ch <;> decide

/-- Only a channel in ACCEPT presents a piece (R4). -/
theorem response_of_presents (s : State) (ch : Channel) (h : presents s ch = true) : (s.chan ch).response = .accept :=
  eq_of_beq ((Bool.and_eq_true _ _).mp h).1

/-- Under takeover the local channel is not in ACCEPT (R104). -/
theorem local_not_accept_of_takeover (s : State) (legal : ResponsesLegal s) (taken : s.supervision.takeover = true) :
    s.localChan.response ≠ .accept := by
  intro accept
  have relation := legal.1
  rw [accept, taken] at relation
  simp [takeoverRelation] at relation

/-! ### Units and the engine -/

theorem fullWipe_engine (s : State) : (fullWipe s).engine = { s.engine with shadow := [] } := by
  unfold fullWipe
  split <;> rfl

/-- A unit leaves the arbiter memory and the held span alone. -/
theorem carryUnit_engine (ch : Channel) (s : State) :
    (carryUnit ch s).engine.arbiter = s.engine.arbiter ∧ (carryUnit ch s).engine.held = s.engine.held := by
  unfold carryUnit
  split
  · unfold glyphUnit
    split <;> simp
  · unfold wipeUnit
    split <;> simp [fullWipe_engine]
  · unfold passUnit
    split <;> simp
  · rename_i f _
    cases f <;> simp [superviseUnit, superviseEffect, areaEffect, lockEffect, routeEffect, timingEffect]
  · unfold repaintUnit
    dsimp only
    split <;> simp
  · exact ⟨rfl, rfl⟩

/-- No unit changes the shadow image but a full-panel wipe, which the local channel makes only while its area is the whole
panel (R31, R33). -/
theorem carryUnit_shadow (ch : Channel) (s : State) :
    (carryUnit ch s).engine.shadow = s.engine.shadow ∨
      (s.chan ch).order = some .wipe ∧ (ch = .localCh → s.supervision.area = Rect.whole) := by
  unfold carryUnit
  split
  · unfold glyphUnit
    split <;> simp
  · rename_i wipe
    unfold wipeUnit
    split
    · simp
    · rename_i whole
      exact .inr ⟨wipe, fun loc => by simpa [loc] using whole⟩
  · unfold passUnit
    split <;> simp
  · rename_i f _
    cases f <;> simp [superviseUnit, superviseEffect, areaEffect, lockEffect, routeEffect, timingEffect]
  · unfold repaintUnit
    dsimp only
    split <;> simp
  · exact .inl rfl

/-! ### The grant of a span -/

theorem unitReady_withArbiter (s : State) (a ch : Channel) :
    unitReady (s.withEngine { s.engine with arbiter := a }) ch = unitReady s ch := by cases ch <;> rfl

theorem spanReady_withArbiter (s : State) (a ch : Channel) :
    spanReady (s.withEngine { s.engine with arbiter := a }) ch = spanReady s ch := by cases ch <;> rfl

theorem unitReady_beginEvent (s : State) (ch : Channel) : unitReady (beginEvent s) ch = unitReady s ch := by
  rw [beginEvent_eq]
  cases ch <;> rfl

theorem spanReady_beginEvent (s : State) (ch : Channel) : spanReady (beginEvent s) ch = spanReady s ch := by
  rw [beginEvent_eq]
  cases ch <;> rfl

/-- The state at the grant of a span, before the span is placed: the arbiter memory names the channel, and its order has
advanced (R6, R51). -/
def spanGranted (ch : Channel) (c : Chan) (s : State) : State :=
  (s.withEngine { s.engine with arbiter := ch }).withChan ch c

/-- The grant of a span places it. -/
theorem grantTo_of_span (ch : Channel) (s : State) (p : Span) (c : Chan) (noUnit : unitReady s ch = false)
    (ready : spanReady s ch = some (p, c)) :
    grantTo ch s = placeSpan { channel := ch, span := p } (spanGranted ch c s) := by
  rw [← unitReady_withArbiter s ch] at noUnit
  rw [← spanReady_withArbiter s ch] at ready
  rcases grantTo_cases ch s with ⟨unit, -⟩ | ⟨-, nothing, -⟩ | ⟨-, q, d, presented, e⟩
  · rw [noUnit] at unit
    cases unit
  · rw [ready] at nothing
    cases nothing
  · rw [ready] at presented
    cases presented
    exact e

/-- The grant of a span moves its channel's order and takes its words, and leaves the rest of the channel alone. -/
theorem formSpan_frame (rowsOf : Byte → List Byte) (c d : Chan) (p : Span) (h : formSpan rowsOf c = some (p, d)) :
    d.context = c.context ∧ d.response = c.response ∧ d.cause = c.cause := by
  unfold formSpan at h
  split at h
  case h_8 =>
    split at h
    · cases h
    · split at h
      · cases h
      · cases h
        exact ⟨rfl, rfl, rfl⟩
  case h_9 => cases h
  case h_1 | h_7 =>
    cases h
    exact ⟨rfl, rfl, rfl⟩
  all_goals
    simp only [Option.ite_none_right_eq_some, Option.some.injEq, Prod.mk.injEq] at h
    obtain ⟨-, -, rfl⟩ := h
    exact ⟨rfl, rfl, rfl⟩

theorem sameDrawing_spanGranted (ch : Channel) (c : Chan) (s : State) (h : c.context = (s.chan ch).context) :
    SameDrawing ch s (spanGranted ch c s) :=
  ⟨by simp [spanGranted], by simp [spanGranted], by simp [spanGranted], by simp [spanGranted],
    by rw [spanGranted, State.withChan_chan, h]⟩

theorem spanGranted_onlyChanges (ch : Channel) (c : Chan) (s : State) :
    OnlyChanges [.arbiter, chanPart ch] s (spanGranted ch c s) := by
  intro p hp
  cases ch <;> cases p <;> simp [SamePart, chanPart, spanGranted] at hp ⊢

theorem renderSpan_arbiter (h : Held) (s : State) : (renderSpan h s).engine.arbiter = s.engine.arbiter := by
  rw [renderSpan_engine, drawSpan_engine]

theorem placeSpan_arbiter (h : Held) (s : State) : (placeSpan h s).engine.arbiter = s.engine.arbiter := by
  rcases placeSpan_cases h s with ⟨-, e⟩ | ⟨-, e⟩ <;> rw [e]
  · exact renderSpan_arbiter h s
  · rfl

theorem placeSpan_port (h : Held) (s : State) : (placeSpan h s).port = s.port := by
  rcases placeSpan_cases h s with ⟨-, e⟩ | ⟨-, e⟩ <;> simp [e]

theorem onlyChanges_hold (h : Held) (s : State) :
    OnlyChanges [.held] s (s.withEngine { s.engine with held := some h }) := by
  intro p hp
  cases p <;> simp [SamePart] at hp ⊢

/-- A grant sets the arbiter memory (R6). -/
theorem grantTo_arbiter (ch : Channel) (s : State) : (grantTo ch s).engine.arbiter = ch := by
  rcases grantTo_cases ch s with ⟨-, e⟩ | ⟨-, -, e⟩ | ⟨-, p, c, -, e⟩ <;> rw [e]
  · rw [(carryUnit_engine ch _).1]
    rfl
  · rfl
  · simp [placeSpan_arbiter]

/-- Settles O7, from the arbiter's table of a FREE engine. -/
theorem arbiterAlternates : Obligations.ArbiterAlternates := by
  intro s
  refine ⟨fun waiting => by simp [grantee, waiting], fun free => ?_, fun ch chosen => ?_, fun legal taken chosen => ?_⟩
  · rw [grantee_of_free s free]
    refine ⟨fun line loc => by simp [line, loc], fun line loc => by simp [line, loc], fun line loc => ?_,
      fun line loc => by simp [line, loc]⟩
    exact ⟨_, by simp only [line, loc, if_true], otherChannel_ne _⟩
  · exact ⟨_, exec_arbiterGrant s ch chosen, by simp [grantTo_arbiter]⟩
  · exact local_not_accept_of_takeover s legal taken (response_of_presents s _ (presents_of_grantee s _ chosen))

/-- A span placed when the render condition holds has rendered when the event closes; `s` is the state before the grant, `u`
the state at it. -/
theorem placeSpan_renders {s u : State} {h : Held} (wf : TableWf 0 16384 s.engine.shadow)
    (same : SameDrawing h.channel s u) (free : s.engine.held = none)
    (frame : OnlyChanges [.arbiter, chanPart h.channel] s u) (due : renderCondition s h = true) :
    let t := closeEvent (placeSpan h u)
    SpanDrawn s t h ∧ t.engine.held = none ∧ t.chan h.channel = spanRendered (u.chan h.channel) ∧
      OnlyChanges [.shadow, .arbiter, .items, .turn, chanPart h.channel, .flags] s t := by
  have place : placeSpan h u = renderSpan h u := by simp [placeSpan, same.renderCondition, due]
  have changes := (frame.trans (renderSpan_onlyChanges h u)).trans (onlyChanges_closeEvent _)
  dsimp only
  rw [place]
  refine ⟨(same.spanDrawn (renderSpan_spanDrawn h u (same.shadow ▸ wf))).closed, by simp [renderSpan_engine],
    by rw [closeEvent_chan, (renderSpan_chan h u).1], ?_⟩
  refine (changes.mono (qs := [.held, .shadow, .arbiter, .items, .turn, chanPart h.channel, .flags]) ?_).drop ?_
  · cases h.channel <;> decide
  · simp [SamePart, renderSpan_engine, free]

/-- A span placed when the render condition fails is held, and nothing is drawn. -/
theorem placeSpan_holds {s u : State} {h : Held} (same : SameDrawing h.channel s u)
    (frame : OnlyChanges [.arbiter, chanPart h.channel] s u) (notDue : renderCondition s h = false) :
    let t := closeEvent (placeSpan h u)
    t.engine.held = some h ∧ t.chan h.channel = u.chan h.channel ∧
      OnlyChanges [.held, .arbiter, chanPart h.channel, .flags] s t := by
  have place : placeSpan h u = u.withEngine { u.engine with held := some h } := by
    simp [placeSpan, same.renderCondition, notDue]
  have changes := (frame.trans (onlyChanges_hold h u)).trans (onlyChanges_closeEvent _)
  dsimp only
  rw [place]
  refine ⟨by simp, by simp [closeEvent_chan], changes.mono ?_⟩
  cases h.channel <;> decide

/-- Settles O8: the command is the grant, which places the span that the channel presents. -/
theorem grantedSpanIsPlaced : Obligations.GrantedSpanIsPlaced := by
  intro s ch o p c cmd wf granted noUnit ready command
  obtain ⟨context, -, -⟩ := formSpan_frame _ _ _ _ ready
  have answer : exec cmd s = .next (closeEvent (grantTo ch (beginEvent s))) := by
    rcases command with rfl | rfl
    · exact exec_arbiterGrant s ch granted.1
    · exact exec_orderCommand ch s o granted
  rw [grantTo_of_span ch _ p c ((unitReady_beginEvent s ch).trans noUnit) ((spanReady_beginEvent s ch).trans ready)]
    at answer
  have same : SameDrawing ch s (spanGranted ch c (beginEvent s)) :=
    (SameDrawing.beginEvent ch s).trans (sameDrawing_spanGranted ch c _ (by rw [beginEvent_chan, context]))
  have frame : OnlyChanges [.arbiter, chanPart ch] s (spanGranted ch c (beginEvent s)) :=
    (onlyChanges_beginEvent s).trans (spanGranted_onlyChanges ch c _)
  have advanced : (spanGranted ch c (beginEvent s)).chan ch = c := State.withChan_chan _ ch c
  refine ⟨formSpan_presented _ _ _ _ ready, _, answer, ?_, ?_, fun due => ?_, fun notDue => ?_⟩
  · simp [placeSpan_arbiter, spanGranted]
  · refine (FlagsAfter.of_flags ?_).closed
    simp [placeSpan_port, spanGranted, beginEvent_eq]
  · obtain ⟨drawn, free, order, changes⟩ := placeSpan_renders wf.1 same (held_of_grantee s ch granted.1) frame due
    rw [advanced] at order
    exact ⟨drawn, free, order, order ▸ spanRendered_progressed c, changes⟩
  · obtain ⟨held, order, changes⟩ := placeSpan_holds same frame notDue
    exact ⟨held, order.trans advanced, changes⟩

/-! ### Local drawing -/

/-- A cell that the drawing of a span changes is one that its channel may draw (R10). -/
theorem SpanDrawn.mayDraw_of_changed {s t : State} {h : Held} (drawn : SpanDrawn s t h) (y : Coord) (g : Group) (k : Nat)
    (hk : k < 16) (changed : shadowCell t y g k ≠ shadowCell s y g k) :
    mayDraw s h.channel (16 * g.val + k) y = true := by
  cases outside : mayDraw s h.channel (16 * g.val + k) y with
  | true => rfl
  | false =>
    refine absurd ?_ changed
    rw [drawn.1 y g k hk]
    split
    · simp only [outside, Bool.and_false, Bool.false_and, drawnCell_outside]
    · rfl

/-- Every cell lies in the whole panel. -/
theorem inRect_whole (x : Nat) (y : Coord) (h : x < 512) : inRect Rect.whole x y = true := by
  simp only [inRect, Rect.whole, Bool.and_eq_true]
  exact ⟨⟨⟨decide_eq_true (Nat.zero_le x), decide_eq_true (Nat.le_of_lt_succ h)⟩, decide_eq_true (Nat.zero_le y.val)⟩,
    decide_eq_true (Nat.le_of_lt_succ y.isLt)⟩

/-- A cell that a grant to the local channel changes lies inside its area, and unless the grant is that of a bulk WIPE it is
one that the channel may draw (R10, R33). -/
theorem grantTo_local_changed (s : State) (wf : TableWf 0 16384 s.engine.shadow) (y : Coord) (g : Group) (k : Nat)
    (hk : k < 16) (changed : shadowCell (grantTo .localCh s) y g k ≠ shadowCell s y g k) :
    mayDraw s .localCh (16 * g.val + k) y = true ∨
      (s.chan .localCh).order = some .wipe ∧ s.supervision.area = Rect.whole := by
  have differs : (grantTo .localCh s).engine.shadow ≠ s.engine.shadow := by
    intro e
    exact changed (by rw [shadowCell, shadowAt, e, shadowCell, shadowAt])
  cases unit : unitReady s .localCh with
  | true =>
    have grant : grantTo .localCh s = carryUnit .localCh (s.withEngine { s.engine with arbiter := .localCh }) := by
      simp only [grantTo, unitReady_withArbiter, unit, if_true]
    rcases carryUnit_shadow .localCh (s.withEngine { s.engine with arbiter := .localCh }) with e | ⟨wipe, whole⟩
    · exact absurd (by rw [grant, e]; rfl) differs
    · exact .inr ⟨wipe, whole rfl⟩
  | false =>
    cases ready : spanReady s .localCh with
    | none =>
      refine absurd ?_ differs
      simp [grantTo, unitReady_withArbiter, spanReady_withArbiter, unit, ready]
    | some next =>
      obtain ⟨p, c⟩ := next
      have grant := grantTo_of_span .localCh s p c unit ready
      have same := sameDrawing_spanGranted .localCh c s (formSpan_frame _ _ _ _ ready).1
      rcases placeSpan_cases { channel := .localCh, span := p } (spanGranted .localCh c s) with ⟨-, e⟩ | ⟨-, e⟩
      · rw [grant, e] at changed
        have drawn := renderSpan_spanDrawn { channel := .localCh, span := p } (spanGranted .localCh c s) (same.shadow ▸ wf)
        exact .inl ((SameDrawing.spanDrawn same drawn).mayDraw_of_changed y g k hk changed)
      · exact absurd (by rw [grant, e]; rfl) differs

/-- Settles O10: every shadow cell that changes is one of a span clipped for its channel, or of a bulk WIPE. -/
theorem localDrawingStaysInItsArea : Obligations.LocalDrawingStaysInItsArea := by
  intro s t y g k wf hk changed
  constructor
  · rintro ⟨p, held⟩ answer
    cases due : renderCondition s { channel := .localCh, span := p } with
    | false =>
      have rest : exec .spanRender s = .next s := by simp [exec, execSpanRender, renderDue, held, due]
      rw [rest] at answer
      cases answer
      exact absurd rfl changed
    | true =>
      obtain ⟨u, answer', drawn, -⟩ := heldSpanRenders s _ wf held due
      rw [answer'] at answer
      cases answer
      exact drawn.mayDraw_of_changed y g k hk changed
  · intro chosen answer
    rw [exec_arbiterGrant s _ chosen] at answer
    cases answer
    have same := SameDrawing.beginEvent .localCh s
    have changed' : shadowCell (grantTo .localCh (beginEvent s)) y g k ≠ shadowCell (beginEvent s) y g k := by
      rw [shadowCell, shadowCell, same.shadowAt]
      simpa [shadowCell, shadowAt] using changed
    have result := grantTo_local_changed (beginEvent s) (same.shadow ▸ wf.1) y g k hk changed'
    rw [same.mayDraw, same.area, beginEvent_chan] at result
    have inArea : mayDraw s .localCh (16 * g.val + k) y = true → inRect s.supervision.area (16 * g.val + k) y = true :=
      fun may => by simpa [mayDraw] using ((Bool.and_eq_true _ _).mp may).2
    have column : 16 * g.val + k < 512 := by omega
    rcases result with may | ⟨wipe, whole⟩
    · exact ⟨inArea may, fun _ => may⟩
    · exact ⟨whole ▸ inRect_whole _ y column, fun notWipe => absurd wipe notWipe⟩

end Sys2Proof.Machine
end

section
/-! PROOFS. The resets: what every block holds after them, and what the supply monitor makes of the supply. -/

namespace Sys2Proof.Machine

/-- An event that is not in progress has no end. -/
theorem closeEvent_of_none (s : State) (h : s.event = none) : closeEvent s = s := by
  rcases closeEvent_cases s with ⟨-, e⟩ | ⟨-, -, e⟩ <;> rw [e]
  simp only [endEvent, h]

/-- A direct effect that ends the event in progress, coming at rest, is the whole command. -/
theorem atEvent_of_ended (f : State → State) (s : State) (rest : AtRest s)
    (ended : (f (s.withEvent (some (observe s)))).event = none) :
    atEvent f s = f (s.withEvent (some (observe s))) := by
  rw [atEvent_of_atRest f s rest, closeEvent_of_none _ ended]

/-- The recover threshold lies above the droop threshold (R75). -/
theorem droopOf_lt_recoverOf (pair : Pair) : droopOf pair < recoverOf pair := by cases pair <;> decide

/-- What the monitor makes of the supply in LOW (R75, R76): SETTLING with the settle timer started above recover, and
otherwise nothing. -/
theorem compareSupply_of_low (s : State) (low : s.sustain.supplyState = .low) :
    compareSupply s =
      if recoverOf s.station.effective.pair < s.sustain.supply then
        s.withSustain { s.sustain with supplyState := .settling, settle := some Config.settleQuarters }
      else s := by
  have order := droopOf_lt_recoverOf s.station.effective.pair
  simp only [compareSupply, supplyBelow, supplyAbove, low]
  split
  · rw [if_neg (by omega)]
  · rfl

theorem glyphRows_nil (slot : Byte) : glyphRows [] slot = List.replicate 16 0 := rfl

/-- What a reset gives (`resetBlocks`), with the parts in which the two resets differ: the engine, the scan timer, the supply
monitor, and the level of the terminal reset input. -/
def resetState (s : State) (engine : Engine) (timer : Option Nat) (supplyState : SupplyState) (settle : Option Nat)
    (asserted : Bool) : State :=
  let t := resetBlocks s
  (((t.withEngine engine).withTouch { t.touch with timer := timer }).withSustain
    { t.sustain with supplyState := supplyState, settle := settle }).withTerminalReset asserted

theorem exec_terminalReset (s : State) (rest : AtRest s) :
    exec .terminalReset s =
      .next (resetState s { s.engine with held := none, arbiter := .localCh } none .low none true) := by
  show Host.Outcome.next (atEvent assertReset s) = _
  rw [atEvent_of_ended assertReset s rest rfl]
  rfl

/-- The engine after power-on reset: no cell lit, no glyph loaded, no set locked, FREE (R5, R139). -/
def emptyEngine : Engine := { shadow := [], glyphs := [], lockSet := 0, held := none, arbiter := .localCh }

/-- Power-on reset: the monitor compares the supply as it stands (R75, R139). -/
theorem powerOn_eq (s : State) :
    let recover := recoverOf (effectiveOf s.station.cells s.station.committed).pair
    powerOn s =
      resetState s emptyEngine (some 40000) (if recover < s.sustain.supply then .settling else .low)
        (if recover < s.sustain.supply then some 80000 else none) false := by
  intro recover
  unfold powerOn startRunning
  rw [compareSupply_of_low _ rfl]
  by_cases above : recover < s.sustain.supply
  · rw [if_pos above, if_pos above]
    exact if_pos above
  · rw [if_neg above, if_neg above]
    exact if_neg above

theorem exec_powerOnReset (s : State) (rest : AtRest s) : exec .powerOnReset s = .next (powerOn s) := by
  have ended : (powerOn (s.withEvent (some (observe s)))).event = none := by rw [powerOn_eq]; rfl
  show Host.Outcome.next (atEvent powerOn s) = _
  rw [atEvent_of_ended powerOn s rest ended]
  rfl

/-- After a reset every row is BLANK (R88). -/
theorem staleAt_resetState (s : State) (engine : Engine) (timer : Option Nat) (supplyState : SupplyState)
    (settle : Option Nat) (asserted : Bool) (y : Coord) :
    staleAt (resetState s engine timer supplyState settle asserted) y = .blank := by
  have blank : (resetState s engine timer supplyState settle asserted).tracker.stale = allBlank := by
    simp [resetState, resetBlocks, State.reset]
  rw [staleAt, blank, allBlank_get]

/-- Either reset leaves the reset state of a FREE engine whose arbiter memory names the local channel (R5), with the rest as
the reset has it. -/
theorem exec_reset (s : State) (c : Instr) (rest : AtRest s) (command : c = .powerOnReset ∨ c = .terminalReset) :
    let recover := recoverOf (effectiveOf s.station.cells s.station.committed).pair
    ∃ engine timer supplyState settle asserted,
      exec c s = .next (resetState s engine timer supplyState settle asserted) ∧
        engine.held = none ∧ engine.arbiter = .localCh ∧
        (c = .terminalReset →
          asserted = true ∧ timer = none ∧ supplyState = .low ∧ settle = none ∧
            engine = { s.engine with held := none, arbiter := .localCh }) ∧
        (c = .powerOnReset →
          asserted = false ∧ timer = some 40000 ∧ engine = emptyEngine ∧
            (recover < s.sustain.supply → supplyState = .settling ∧ settle = some 80000) ∧
            (s.sustain.supply ≤ recover → supplyState = .low ∧ settle = none)) := by
  intro recover
  rcases command with rfl | rfl
  · have answer := exec_powerOnReset s rest
    rw [powerOn_eq] at answer
    refine ⟨_, _, _, _, _, answer, rfl, rfl, fun e => (nomatch e), fun _ => ⟨rfl, rfl, rfl, ?_, ?_⟩⟩
    · exact fun above => ⟨if_pos above, if_pos above⟩
    · exact fun below => ⟨if_neg (Nat.not_lt.mpr below), if_neg (Nat.not_lt.mpr below)⟩
  · exact ⟨_, none, .low, none, true, exec_terminalReset s rest, rfl, rfl, fun _ => ⟨rfl, rfl, rfl, rfl, rfl⟩,
      fun e => (nomatch e)⟩

/-- Settles O30: both resets leave a `resetState`, whose values do not depend on which reset it was. -/
theorem resetsGiveTheirValues : Obligations.ResetsGiveTheirValues := by
  intro s c rest command
  obtain ⟨engine, timer, supplyState, settle, asserted, answer, held, arbiter, terminal, power⟩ :=
    exec_reset s c rest command
  have chan (ch : Channel) : (resetState s engine timer supplyState settle asserted).chan ch = Chan.initial := by
    cases ch <;> rfl
  refine ⟨_, answer, rfl, rfl, chan, rfl, rfl, rfl, rfl, held, arbiter, rfl, rfl, rfl, rfl, rfl, rfl, rfl, rfl,
    staleAt_resetState s engine timer supplyState settle asserted, rfl, rfl, rfl, rfl, rfl, rfl, rfl, rfl,
    effectiveOf_decoded s.station, rfl, terminal, fun isPower => ?_⟩
  obtain ⟨deasserted, running, empty, above, below⟩ := power isPower
  refine ⟨deasserted, running, fun y g => ?_, fun slot => ?_, ?_, above, below⟩
  · show sparseGet 0 engine.shadow (rowKey y g) = 0
    rw [empty]
    rfl
  · show glyphRows engine.glyphs slot = _
    rw [empty]
    exact glyphRows_nil slot
  · show engine.lockSet = 0
    rw [empty]
    rfl

end Sys2Proof.Machine
end

section
/-! PROOFS. The tail of the strike queue: strikes on the panel row-group by row-group, the legal form of a queue, and an item
handed over. -/

namespace Sys2Proof.Machine

/-! ### Strikes on the panel -/

/-- The cells of a row-group after a strike of a kind (R62). -/
def struck (kind : StrikeKind) (cells old : Cells) : Cells :=
  match kind with
  | .write => old ||| cells
  | .erase => old &&& ~~~cells

theorem struck_empty (kind : StrikeKind) (old : Cells) : struck kind 0 old = old := by
  cases kind with
  | write => simp [struck]
  | erase => exact BitVec.and_allOnes

/-- Two strikes of one kind are one strike of the union. -/
theorem struck_struck (kind : StrikeKind) (a b old : Cells) :
    struck kind b (struck kind a old) = struck kind (a ||| b) old := by
  cases kind <;> simp [struck, BitVec.or_assoc, BitVec.and_assoc, BitVec.not_or]

/-- A strike changes its own row-group alone (R62). -/
theorem sparseGet_applyStrike (kind : StrikeKind) (y : Coord) (g : Group) (cells : Cells) (lit : List (Nat × Cells))
    (wf : TableWf 0 16384 lit) (key : Nat) :
    sparseGet 0 (applyItem (.strike kind y g cells) lit) key =
      if key = rowKey y g then struck kind cells (sparseGet 0 lit key) else sparseGet 0 lit key := by
  have read (v : Cells) := sparseGet_set 0 lit (rowKey y g) key v wf.1
  cases kind with
  | write | erase =>
    simp only [applyItem, read, struck]
    split
    · rename_i here
      rw [here]
    · rfl

/-- The panel after the items of a queue, in queue order. -/
def applyItems (items : List StrikeItem) (lit : List (Nat × Cells)) : List (Nat × Cells) :=
  items.foldl (fun m i => applyItem i m) lit

theorem projectedPanel_eq (s : State) : projectedPanel s = applyItems s.strikes.items s.panel.lit := rfl

theorem applyItems_snoc (items : List StrikeItem) (item : StrikeItem) (lit : List (Nat × Cells)) :
    applyItems (items ++ [item]) lit = applyItem item (applyItems items lit) := by
  simp [applyItems]

theorem applyItems_wf (items : List StrikeItem) : ∀ lit, TableWf 0 16384 lit → TableWf 0 16384 (applyItems items lit) := by
  induction items with
  | nil => exact fun _ wf => wf
  | cons item rest ih => exact fun lit wf => ih _ (applyItem_wf item lit wf)

/-! ### The legal form of a queue -/

/-- Neighbours differ in a queue with one item more when they differ in the queue before it and its newest item differs from
the item more (R64). -/
theorem noTwinNeighbours_snoc (items : List StrikeItem) (item : StrikeItem) :
    noTwinNeighbours (items ++ [item]) = true ↔
      noTwinNeighbours items = true ∧ ∀ last, items.getLast? = some last → sameStrike last item = false := by
  induction items with
  | nil => exact ⟨fun _ => ⟨rfl, fun _ e => nomatch e⟩, fun _ => rfl⟩
  | cons a rest ih =>
    cases rest with
    | nil =>
      simp only [List.cons_append, List.nil_append, noTwinNeighbours, Bool.and_true, Bool.not_eq_true', true_and,
        List.getLast?_singleton, Option.some.injEq, forall_eq']
    | cons b rest =>
      rw [List.cons_append] at ih
      simp only [List.cons_append, noTwinNeighbours, Bool.and_eq_true, ih, List.getLast?_cons_cons, and_assoc]

theorem sameStrike_cells (item : StrikeItem) (kind : StrikeKind) (y : Coord) (g : Group) (a b : Cells) :
    sameStrike item (.strike kind y g a) = sameStrike item (.strike kind y g b) := by
  cases item <;> rfl

/-- A queue that ends in a strike is legal when the queue before it is, the strike has cells, and the item before it is of
another kind, row or group (R62, R64). -/
theorem queueLegal_snoc (items : List StrikeItem) (kind : StrikeKind) (y : Coord) (g : Group) (cells : Cells) :
    QueueLegal (items ++ [.strike kind y g cells]) ↔
      QueueLegal items ∧ cells ≠ 0 ∧
        ∀ last, items.getLast? = some last → sameStrike last (.strike kind y g cells) = false := by
  have bulk : StrikeItem.bulk ∉ (items ++ [StrikeItem.strike kind y g cells]).tail ↔ StrikeItem.bulk ∉ items.tail := by
    cases items <;> simp
  unfold QueueLegal
  rw [bulk, noTwinNeighbours_snoc]
  simp only [List.mem_append, List.mem_singleton]
  constructor
  · rintro ⟨nonempty, ⟨chain, last⟩, old⟩
    exact ⟨⟨fun k z h c hc => nonempty k z h c (.inl hc), chain, old⟩, nonempty kind y g cells (.inr rfl), last⟩
  · rintro ⟨⟨nonempty, chain, old⟩, lights, last⟩
    refine ⟨fun k z h c hc => ?_, ⟨chain, last⟩, old⟩
    rcases hc with hc | hc
    · exact nonempty k z h c hc
    · cases hc
      exact lights

/-- The item handed over is merged into the tail or joins behind it, and the panel comes out as if it had joined (R14, R64). -/
theorem applyItems_handOver (kind : StrikeKind) (y : Coord) (g : Group) (cells : Cells) (items : List StrikeItem)
    (lit : List (Nat × Cells)) (wf : TableWf 0 16384 lit) (key : Nat) :
    sparseGet 0 (applyItems (handOver kind y g cells items) lit) key =
      sparseGet 0 (applyItems (items ++ [.strike kind y g cells]) lit) key := by
  have strike (c : Cells) (q : List StrikeItem) :=
    sparseGet_applyStrike kind y g c (applyItems q lit) (applyItems_wf q lit wf) key
  rcases handOver_cases kind y g cells items with ⟨rfl, e⟩ | ⟨-, held, newest, e⟩ | ⟨-, -, e⟩ <;> rw [e]
  · rw [applyItems_snoc, strike, struck_empty, ite_self]
  · obtain ⟨older, rfl⟩ := List.getLast?_eq_some_iff.mp newest
    rw [List.dropLast_concat, applyItems_snoc, applyItems_snoc, strike, strike, applyItems_snoc, strike]
    split
    · rw [struck_struck]
    · rfl

/-- A queue of legal form keeps it when an item is handed over (R62, R64, R67). -/
theorem handOver_queueLegal (kind : StrikeKind) (y : Coord) (g : Group) (cells : Cells) (items : List StrikeItem)
    (legal : QueueLegal items) : QueueLegal (handOver kind y g cells items) := by
  rcases handOver_cases kind y g cells items with ⟨-, e⟩ | ⟨nonempty, held, newest, e⟩ | ⟨nonempty, other, e⟩ <;> rw [e]
  · exact legal
  · obtain ⟨older, rfl⟩ := List.getLast?_eq_some_iff.mp newest
    obtain ⟨before, -, last⟩ := (queueLegal_snoc older kind y g held).mp legal
    rw [List.dropLast_concat, queueLegal_snoc]
    refine ⟨before, ?_, fun item h => (sameStrike_cells item kind y g _ _).trans (last item h)⟩
    exact fun empty => nonempty (BitVec.or_eq_zero_iff.mp empty).2
  · refine (queueLegal_snoc items kind y g cells).mpr ⟨legal, nonempty, fun last h => ?_⟩
    cases last with
    | bulk => rfl
    | strike k z h' held =>
      refine Bool.eq_false_iff.mpr fun same => other held ?_
      obtain ⟨⟨rfl, rfl⟩, rfl⟩ : (k = kind ∧ z = y) ∧ h' = g := by simpa [sameStrike] using same
      exact h

/-- Settles O33, from the three cases of a hand-over. -/
theorem handedItemJoinsTheTail : Obligations.HandedItemJoinsTheTail := by
  intro kind y g cells held items lit wf
  have outcome := handOver_cases kind y g cells items
  refine ⟨fun empty => ?_, fun nonempty newest => ?_, fun nonempty other => ?_,
    applyItems_handOver kind y g cells items lit wf, handOver_queueLegal kind y g cells items⟩
  · rcases outcome with ⟨-, e⟩ | ⟨nonempty, -⟩ | ⟨nonempty, -⟩
    · exact e
    · exact absurd empty nonempty
    · exact absurd empty nonempty
  · rcases outcome with ⟨empty, -⟩ | ⟨-, held', newest', e⟩ | ⟨-, other, -⟩
    · exact absurd empty nonempty
    · rw [newest'] at newest
      cases newest
      exact e
    · exact absurd newest (other held)
  · rcases outcome with ⟨empty, -⟩ | ⟨-, held', newest, -⟩ | ⟨-, -, e⟩
    · exact absurd empty nonempty
    · exact absurd newest (other held')
    · exact e

end Sys2Proof.Machine
end

section
/-! PROOFS. The start of an order: what its decoder reaches, the channel it leaves, and the command that the order is. -/

namespace Sys2Proof.Machine

/-! ### What a decoder reaches -/

section

variable {ch : Channel} {s : State} {kind : OrderKind} {head : Word} {args rest : List Word}

theorem ReachesOrder.accept (h : ReachesOrder ch s kind head args rest) : (s.chan ch).response = .accept := h.1

theorem ReachesOrder.idle (h : ReachesOrder ch s kind head args rest) : (s.chan ch).order = none := h.2.1

/-- A decoder that reaches an order acts on it with its fixed arguments (R50, R53). -/
theorem ReachesOrder.reached (h : ReachesOrder ch s kind head args rest) :
    reached ch (s.chan ch) = .order kind head args := by
  obtain ⟨accept, idle, fifo, named, count, checked, line⟩ := h
  have privileged : (isSupervise head && ch == .localCh) = false := by
    cases sup : isSupervise head with
    | false => rfl
    | true => rw [line sup]; rfl
  have taken : (args ++ rest).take (argumentCount kind) = args := by rw [← count, List.take_left]
  have present : ¬ (args ++ rest).length < argumentCount kind := by simp [← count]
  have passes : ¬ (coordinateArguments kind && args.any badCoordinate) = true := by
    intro both
    obtain ⟨coordinates, bad⟩ := (Bool.and_eq_true _ _).mp both
    rw [checked coordinates] at bad
    cases bad
  simp only [Machine.reached, accept, idle, fifo, reachedIn, privileged, named, taken, if_neg present, if_neg passes]
  rfl

/-- The command of an order is due where its decoder reaches the order. -/
theorem ReachesOrder.orderReached (h : ReachesOrder ch s kind head args rest) : orderReached kind ch s = true := by
  have acts := h.reached
  obtain ⟨-, -, fifo, named, -⟩ := h
  simp [Machine.orderReached, decodeDue, acts, frontKind, fifo, named]

/-- What a decoder reaches does not depend on the event in progress. -/
theorem ReachesOrder.beginEvent (h : ReachesOrder ch s kind head args rest) :
    ReachesOrder ch (beginEvent s) kind head args rest := by
  unfold ReachesOrder
  rw [beginEvent_chan]
  exact h

/-- The decoder acts on the order it reaches (R50). -/
theorem ReachesOrder.decodeStep (h : ReachesOrder ch s kind head args rest) :
    decodeStep ch s = s.withChan ch (decoded ch s.supervision.area kind head args (s.chan ch)) := by
  simp only [Machine.decodeStep, h.reached]

/-- The words of the order that is reached leave the FIFO together (R48). -/
theorem ReachesOrder.drop_fifo (h : ReachesOrder ch s kind head args rest) :
    (s.chan ch).fifo.drop (argumentCount kind + 1) = rest := by
  obtain ⟨-, -, fifo, -, count, -⟩ := h
  rw [fifo, List.drop_succ_cons, ← count, List.drop_left]

/-! ### The command of an order that is reached -/

/-- The state at the start of the order that the decoder of `ch` reaches. -/
def startedState (ch : Channel) (kind : OrderKind) (head : Word) (args : List Word) (s : State) : State :=
  (beginEvent s).withChan ch (decoded ch s.supervision.area kind head args (s.chan ch))

theorem startedState_chan (ch : Channel) (kind : OrderKind) (head : Word) (args : List Word) (s : State) :
    (startedState ch kind head args s).chan ch = decoded ch s.supervision.area kind head args (s.chan ch) :=
  State.withChan_chan _ _ _

/-- A channel that is replaced is the one part that changes. -/
theorem onlyChanges_withChan (ch : Channel) (c : Chan) (s : State) : OnlyChanges [chanPart ch] s (s.withChan ch c) := by
  intro p hp
  cases ch <;> cases p <;> simp [SamePart, chanPart] at hp ⊢

/-- The start of an order changes its channel alone. -/
theorem startedState_onlyChanges (ch : Channel) (kind : OrderKind) (head : Word) (args : List Word) (s : State) :
    OnlyChanges [chanPart ch] s (startedState ch kind head args s) :=
  (onlyChanges_beginEvent s).trans (onlyChanges_withChan ch _ _)

theorem startedState_port (ch : Channel) (kind : OrderKind) (head : Word) (args : List Word) (s : State) :
    (startedState ch kind head args s).port = s.port := by
  simp [startedState, beginEvent_eq]

/-- An event that ends at the start of an order has changed its channel, and no flag but by comparison. -/
theorem startedState_closed (ch : Channel) (kind : OrderKind) (head : Word) (args : List Word) (s : State) :
    let t := closeEvent (startedState ch kind head args s)
    t.chan ch = decoded ch s.supervision.area kind head args (s.chan ch) ∧ OnlyChanges [chanPart ch, .flags] s t ∧
      FlagsAfter [] s t :=
  ⟨by rw [closeEvent_chan, startedState_chan],
    (startedState_onlyChanges ch kind head args s).trans (onlyChanges_closeEvent _),
    (FlagsAfter.of_flags (by rw [startedState_port])).closed⟩

/-- At its event the decoder carries out or starts the order it reaches. -/
theorem ReachesOrder.decodeStep_beginEvent (h : ReachesOrder ch s kind head args rest) :
    Machine.decodeStep ch (Machine.beginEvent s) = startedState ch kind head args s := by
  rw [h.beginEvent.decodeStep, startedState, beginEvent_chan]
  simp [beginEvent_eq]

/-- A context-only order as a command is carried out at its start (R50). -/
theorem ReachesOrder.contextCommand (h : ReachesOrder ch s kind head args rest) :
    contextCommand kind ch s = closeEvent (startedState ch kind head args s) := by
  simp only [Machine.contextCommand, h.orderReached, stepWhen_true, withinEvent, h.decodeStep_beginEvent]

/-- A granted order as a command is its start and then the grant of its piece, where that is granted at once. -/
theorem ReachesOrder.grantedCommand (h : ReachesOrder ch s kind head args rest) :
    grantedCommand kind ch s = closeEvent (grantOrder kind ch (startedState ch kind head args s)) := by
  simp only [Machine.grantedCommand, h.orderReached, Bool.true_or, stepWhen_true, withinEvent, startOrder,
    h.beginEvent.orderReached, if_true, h.decodeStep_beginEvent]

end

/-- Settles O21: MOVE is carried out by the decoder alone, which reaches nothing behind an order in progress. -/
theorem moveIsCarriedOut : Obligations.MoveIsCarriedOut := by
  intro s ch head x y rest
  refine ⟨fun reaches => ?_, fun busy => ?_⟩
  · obtain ⟨order, changes, flags⟩ := startedState_closed ch .move head [x, y] s
    have words : (s.chan ch).fifo.drop 3 = rest := reaches.drop_fifo
    refine ⟨_, congrArg Host.Outcome.next reaches.contextCommand, order.trans ?_, changes, flags⟩
    simp only [decoded, reachMove, popOrder, words]
    rfl
  · obtain ⟨o, carried⟩ := Option.isSome_iff_exists.mp busy
    simp only [exec, execMove, contextCommand, orderReached_of_order .move ch s o carried, stepWhen_false]

/-! ### The start of a granted order -/

/-- The granted orders (R3): those that the arbiter has to grant. -/
def isGrantedKind (kind : OrderKind) : Prop :=
  kind ∈ [.dot, .line, .block, .raster, .text, .glyph, .wipe, .pass, .repaint, .take, .give, .area, .lock, .route, .timing]

/-- The command of a granted order (R50, R51). -/
theorem exec_of_isGrantedKind (ch : Channel) (kind : OrderKind) (s : State) (h : isGrantedKind kind) :
    exec (orderCommand ch kind) s = .next (grantedCommand kind ch s) := by
  cases kind with
  | nop | move | newline | margin | mode | clip => simp [isGrantedKind] at h
  | _ => rfl

/-- Whether a LINE draws a step: with pen fresh clear step 0 is left out (R23). -/
def drawsLine (c : Context) (stop : Point) : Prop := (if c.penFresh then 0 else 1) ≤ lineSteps c.position stop

/-- A LINE that draws a step starts (R23). -/
theorem reachLine_of_drawsLine (args : List Word) (c : Chan) (h : drawsLine c.context (pointOf args)) :
    reachLine args c =
      { c with
        fifo := c.fifo.drop 3
        order := some (.line c.context.position (pointOf args) (if c.context.penFresh then 0 else 1)) } :=
  if_pos h

/-- A LINE left without a step completes at its start (R23). -/
theorem reachLine_of_not_drawsLine (args : List Word) (c : Chan) (h : ¬ drawsLine c.context (pointOf args)) :
    reachLine args c =
      { c with fifo := c.fifo.drop 3, context := { c.context with position := pointOf args, penFresh := false } } :=
  if_neg h

/-- A TEXT with count 0 completes at its start (R40). -/
theorem reachText_of_empty (head : Word) (c : Chan) (h : countOf head = 0) :
    reachText head c = { c with fifo := c.fifo.drop 1, context := { c.context with penFresh := true } } :=
  if_pos h

/-- A TEXT with a character starts (R40). -/
theorem reachText_of_count (head : Word) (c : Chan) (h : countOf head ≠ 0) :
    reachText head c =
      { c with fifo := c.fifo.drop 1, order := some (.text (countOf head) c.context.position none none none) } :=
  if_neg h

/-- The path a WIPE takes over its effective clip rectangle (R30). -/
def wipePath (r : Rect) : Order := if r = Rect.whole then .wipe else .wipeArea r 0

theorem orderKind_wipePath (r : Rect) : orderKind (wipePath r) = .wipe := by
  unfold wipePath
  split <;> rfl

/-- A WIPE takes its path over its effective clip rectangle, and completes at its start without one (R30). -/
theorem reachWipe_eq (ch : Channel) (area : Rect) (c : Chan) (idle : c.order = none) :
    reachWipe ch area c = { c with fifo := c.fifo.drop 1, order := (effectiveClip ch area c).map wipePath } := by
  unfold reachWipe
  cases effectiveClip ch area c with
  | none => simp [popOrder, idle]
  | some r => rfl

theorem effectiveClip_eq (ch : Channel) (area : Rect) (c : Chan) :
    effectiveClip ch area c = if ch = .lineCh then some c.context.clip else rectMeet c.context.clip area := by
  cases ch <;> rfl

/-- The record that a granted order starts is of its kind (R51). -/
theorem orderKind_decoded (ch : Channel) (area : Rect) (kind : OrderKind) (head : Word) (args : List Word) (c : Chan)
    (h : isGrantedKind kind) (idle : c.order = none) (o : Order)
    (started : (decoded ch area kind head args c).order = some o) : orderKind o = kind := by
  cases kind with
  | nop | move | newline | margin | mode | clip => simp [isGrantedKind] at h
  | line =>
    rw [decoded] at started
    by_cases draws : drawsLine c.context (pointOf args)
    · rw [reachLine_of_drawsLine args c draws] at started
      cases started
      rfl
    · rw [reachLine_of_not_drawsLine args c draws] at started
      simp [idle] at started
  | text =>
    rw [decoded] at started
    by_cases empty : countOf head = 0
    · rw [reachText_of_empty head c empty] at started
      simp [idle] at started
    · rw [reachText_of_count head c empty] at started
      cases started
      rfl
  | wipe =>
    rw [decoded, reachWipe_eq ch area c idle] at started
    obtain ⟨r, -, rfl⟩ := Option.map_eq_some_iff.mp started
    exact orderKind_wipePath r
  | _ =>
    cases started
    rfl

/-- A channel that presents a piece has an order in progress (R4). -/
theorem order_of_presents (s : State) (ch : Channel) (h : presents s ch = true) : ∃ o, (s.chan ch).order = some o := by
  cases carried : (s.chan ch).order with
  | some o => exact ⟨o, rfl⟩
  | none => simp [presents, unitReady, spanReady, formSpan, carried] at h

/-- An order starts within an event that has begun. -/
theorem beginEvent_startedState (ch : Channel) (kind : OrderKind) (head : Word) (args : List Word) (s : State) :
    beginEvent (startedState ch kind head args s) = startedState ch kind head args s := by
  have begun : (startedState ch kind head args s).event = some { s.event.getD (observe s) with opening := .shut } := by
    simp [startedState, beginEvent_eq]
  rw [beginEvent_eq, begun, Option.getD_some, ← begun, State.withEvent_self]

section

variable {ch : Channel} {s : State} {kind : OrderKind} {head : Word} {args rest : List Word}

/-- A granted order whose piece is not granted at once waits behind its start. -/
theorem ReachesOrder.grantedCommand_waits (h : ReachesOrder ch s kind head args rest)
    (waits : grantee (startedState ch kind head args s) ≠ some ch) :
    Machine.grantedCommand kind ch s = closeEvent (startedState ch kind head args s) := by
  rw [h.grantedCommand, grantOrder, if_neg]
  simp [orderGranted, waits]

/-- A granted order whose piece is granted at once is granted by the same command. -/
theorem ReachesOrder.grantedCommand_granted (h : ReachesOrder ch s kind head args rest) (o : Order)
    (granted : Granted ch (startedState ch kind head args s) o) (same : orderKind o = kind) :
    Machine.grantedCommand kind ch s = closeEvent (grantTo ch (startedState ch kind head args s)) := by
  rw [h.grantedCommand, grantOrder, if_pos]
  simp [orderGranted, granted.1, granted.2, same]

end

/-- Settles O24: the channel that each start leaves, and the grant behind it by the same command, which the command of the
order in progress would make. -/
theorem grantedOrderStarts : Obligations.GrantedOrderStarts := by
  intro s ch kind head args rest reaches granted old word value q first drawsLine extent started u
  have words := reaches.drop_fifo
  have idle := reaches.idle
  have start : decoded ch s.supervision.area kind head args (s.chan ch) = started := by
    cases kind with
    | nop | move | newline | margin | mode | clip => simp at granted
    | line =>
      by_cases draws : Machine.drawsLine old (pointOf args)
      · have here : drawsLine := draws
        rw [decoded, reachLine_of_drawsLine args _ draws]
        simp only [started, if_pos here, ← words]
        rfl
      · have here : ¬drawsLine := draws
        rw [decoded, reachLine_of_not_drawsLine args _ draws]
        simp only [started, if_neg here, ← words, idle]
        rfl
    | text =>
      by_cases empty : head.toNat % 256 = 0
      · rw [decoded, reachText_of_empty head _ empty]
        simp only [started, if_pos empty, ← words, idle]
        rfl
      · rw [decoded, reachText_of_count head _ empty]
        simp only [started, if_neg empty, ← words]
        rfl
    | wipe =>
      rw [decoded, reachWipe_eq ch _ _ idle, effectiveClip_eq]
      simp only [started, ← words]
      rfl
    | _ =>
      simp only [started, ← words]
      rfl
  have begun : u = startedState ch kind head args s := by rw [startedState, start]
  have command := exec_of_isGrantedKind ch kind s granted
  rw [begun]
  refine ⟨fun waits => ?_, fun chosen => ?_⟩
  · rw [command, reaches.grantedCommand_waits waits, ← start]
    exact ⟨_, rfl, startedState_closed ch kind head args s⟩
  · obtain ⟨o, carried⟩ := order_of_presents _ ch (presents_of_grantee _ ch chosen)
    have same : orderKind o = kind := by
      rw [startedState_chan] at carried
      exact orderKind_decoded ch _ kind head args _ granted idle o carried
    have inProgress := exec_orderCommand ch (startedState ch kind head args s) o ⟨chosen, carried⟩
    rw [same, beginEvent_startedState] at inProgress
    rw [startedState_chan, start] at carried
    rw [inProgress, command, reaches.grantedCommand_granted o ⟨chosen, by rw [startedState_chan, start, carried]⟩ same]
    exact ⟨⟨o, carried, same⟩, rfl⟩

end Sys2Proof.Machine
end

section
/-! PROOFS. The rows of a RASTER and the path of a WIPE: what leaves the FIFO at a grant or without one, and what the grant of a
WIPE does. -/

namespace Sys2Proof.Machine

/-! ### The rows of a RASTER -/

/-- A channel whose span is granted stands as the grant leaves it, or with that span rendered at once (R7). -/
theorem grantTo_span_chan (ch : Channel) (s : State) (p : Span) (c : Chan) (noUnit : unitReady s ch = false)
    (ready : spanReady s ch = some (p, c)) : (grantTo ch s).chan ch = c ∨ (grantTo ch s).chan ch = spanRendered c := by
  have advanced : (spanGranted ch c s).chan ch = c := State.withChan_chan _ ch c
  rw [grantTo_of_span ch s p c noUnit ready]
  rcases placeSpan_cases { channel := ch, span := p } (spanGranted ch c s) with ⟨-, e⟩ | ⟨-, e⟩ <;> rw [e]
  · exact .inr ((renderSpan_chan { channel := ch, span := p } _).1.trans (congrArg spanRendered advanced))
  · exact .inl advanced

/-- The channel at the grant of a drawn RASTER row's first span: the row's words are latched (R28). -/
def rowLatched (c : Chan) (p : Point) (w left image : Nat) : Chan :=
  { c with
    fifo := c.fifo.drop (rasterWords w)
    order := some (.raster p w (left - 1) image 1 (some (c.fifo.take (rasterWords w)))) }

/-- A drawn RASTER row whose words are present presents its first span (R28). -/
theorem formSpan_of_row (rowsOf : Byte → List Byte) (c : Chan) (p : Point) (w left image n : Nat)
    (order : c.order = some (.raster p w left image n none)) (more : left ≠ 0) (drawn : image ≤ p.y.val)
    (words : rasterWords w ≤ c.fifo.length) :
    formSpan rowsOf c = some (rasterSpan p w image 0 (c.fifo.take (rasterWords w)), rowLatched c p w left image) := by
  have ready : left ≠ 0 ∧ rasterDrawn p image = true ∧ rasterWords w ≤ c.fifo.length :=
    ⟨more, decide_eq_true drawn, words⟩
  simp only [formSpan, order, if_pos ready]
  rfl

/-- The render of a row's span leaves the FIFO alone. -/
theorem spanRendered_rowLatched_fifo (c : Chan) (p : Point) (w left image : Nat) :
    (spanRendered (rowLatched c p w left image)).fifo = c.fifo.drop (rasterWords w) := by
  simp only [spanRendered, rowLatched]
  split
  · rfl
  · split <;> rfl

/-- The render of a row's first span goes on to the row's next, where it has one (R28). -/
theorem spanRendered_rowLatched (c : Chan) (p : Point) (w left image : Nat) (more : 2 ≤ rasterSpans p w) :
    spanRendered (rowLatched c p w left image) = rowLatched c p w left image :=
  if_pos more

/-- A dropped RASTER row leaves with its words, and the last one ends the order (R29). -/
theorem droppedRowHandled_of_row (c : Chan) (p : Point) (w left image n : Nat)
    (order : c.order = some (.raster p w left image n none)) (more : left ≠ 0) :
    droppedRowHandled c =
      { c with
        fifo := c.fifo.drop (rasterWords w)
        order := if left = 1 then none else some (.raster p w (left - 1) (image + 1) 0 none) } := by
  have last : left ≤ 1 ↔ left = 1 := by omega
  simp only [droppedRowHandled, order, last]

/-- DROPPED_ROW_HANDLING is the handling of the row, where it is due (R29). -/
theorem exec_droppedRowHandling (ch : Channel) (s : State) (due : droppedRowDue ch s = true) :
    exec (.droppedRowHandling ch) s = .next (closeEvent (droppedRowStep ch (beginEvent s))) := by
  simp only [exec, execDroppedRowHandling, due, stepWhen_true, withinEvent]

/-- Settles O17: a drawn row's words leave at its first grant, a dropped row's at its handling. -/
theorem rasterTakesItsRows : Obligations.RasterTakesItsRows := by
  intro s ch p w left image n count more words
  refine ⟨fun granted drawn => ?_, fun accept order below => ?_⟩
  · have order : ((beginEvent s).chan ch).order = some (.raster p w left image n none) := by
      rw [beginEvent_chan, granted.2]
    have noUnit : unitReady (beginEvent s) ch = false := by simp only [unitReady, order]
    have ready := formSpan_of_row (glyphRows (beginEvent s).engine.glyphs) _ p w left image n order more drawn
      (by rwa [beginEvent_chan])
    refine ⟨_, exec_orderCommand ch s _ granted, ?_⟩
    rw [closeEvent_chan]
    rcases grantTo_span_chan ch (beginEvent s) _ _ noUnit ready with e | e <;> rw [e, beginEvent_chan]
    · exact ⟨rfl, fun _ => rfl⟩
    · refine ⟨spanRendered_rowLatched_fifo _ p w left image, fun two => ?_⟩
      rw [spanRendered_rowLatched _ p w left image two]
      rfl
  · have due : droppedRowDue ch s = true := by
      have dropped : rasterDrawn p image = false := decide_eq_false (by omega)
      have present : rasterWords w ≤ (s.chan ch).fifo.length := words
      simp [droppedRowDue, droppedRowReady, accept, order, more, dropped, present]
    refine ⟨_, exec_droppedRowHandling ch s due, ?_, ?_, (FlagsAfter.of_flags ?_).closed⟩
    · rw [closeEvent_chan, droppedRowStep, State.withChan_chan, beginEvent_chan]
      exact droppedRowHandled_of_row _ p w left image n order more
    · exact ((onlyChanges_beginEvent s).trans (onlyChanges_withChan ch _ _)).trans (onlyChanges_closeEvent _)
    · simp [beginEvent_eq]

/-! ### The path of a WIPE -/

/-- The grant of a unit carries it out (R3). -/
theorem grantTo_of_unit (ch : Channel) (s : State) (ready : unitReady s ch = true) :
    grantTo ch s = carryUnit ch (s.withEngine { s.engine with arbiter := ch }) := by
  simp only [grantTo, unitReady_withArbiter, ready, if_true]

/-- The grant of a WIPE on the bulk path (R31). -/
theorem grantTo_of_wipe (ch : Channel) (s : State) (order : (s.chan ch).order = some .wipe) :
    grantTo ch s = wipeUnit ch (s.withEngine { s.engine with arbiter := ch }) := by
  rw [grantTo_of_unit ch s (by simp only [unitReady, order])]
  simp only [carryUnit, State.withEngine_chan, order]

/-- The state at the grant of a piece, before it is carried out. -/
def grantBegun (ch : Channel) (s : State) : State :=
  (beginEvent s).withEngine { (beginEvent s).engine with arbiter := ch }

theorem onlyChanges_grantBegun (ch : Channel) (s : State) : OnlyChanges [.arbiter] s (grantBegun ch s) := by
  intro p hp
  rw [grantBegun, beginEvent_eq]
  cases p <;> simp [SamePart] at hp ⊢

@[simp] theorem grantBegun_frame (ch : Channel) (s : State) :
    (grantBegun ch s).localChan = s.localChan ∧ (grantBegun ch s).supervision = s.supervision ∧
      (grantBegun ch s).strikes = s.strikes ∧ (grantBegun ch s).sustain = s.sustain ∧
      (grantBegun ch s).tracker = s.tracker ∧ (grantBegun ch s).port = s.port := by
  simp [grantBegun, beginEvent_eq]

@[simp] theorem grantBegun_chan (ch other : Channel) (s : State) : (grantBegun ch s).chan other = s.chan other := by
  rw [grantBegun, State.withEngine_chan, beginEvent_chan]

/-- A WIPE as a command, at its grant on the bulk path. -/
theorem exec_wipe_granted (ch : Channel) (s : State) (granted : Granted ch s .wipe) :
    exec (.wipe ch) s = .next (closeEvent (wipeUnit ch (grantBegun ch s))) := by
  rw [grantBegun, ← grantTo_of_wipe ch (beginEvent s) (by rw [beginEvent_chan, granted.2])]
  exact exec_orderCommand ch s .wipe granted

/-- A WIPE of the line channel, or of a local channel whose area is the whole panel, is carried out (R31, R33). -/
theorem wipeUnit_whole (ch : Channel) (s : State) (h : ch = .lineCh ∨ s.supervision.area = Rect.whole) :
    wipeUnit ch s = completeOrder ch (fullWipe s) := by
  unfold wipeUnit
  rw [if_neg]
  rintro ⟨rfl, narrowed⟩
  rcases h with line | whole
  · cases line
  · exact narrowed whole

/-- A full-panel wipe of a LIVE panel (R31, R67, R98). -/
theorem fullWipe_of_live (s : State) (live : s.sustain.panelState = .live) :
    fullWipe s =
      ((s.withEngine { s.engine with shadow := [] }).withStrikes { s.strikes with items := [.bulk] }).withTracker
        { stale := [], scanner := { s.tracker.scanner with active := false, current := none } } :=
  if_pos live

/-- A full-panel wipe of a panel that is not LIVE empties the shadow image alone (R31). -/
theorem fullWipe_of_not_live (s : State) (h : s.sustain.panelState ≠ .live) :
    fullWipe s = s.withEngine { s.engine with shadow := [] } :=
  if_neg h

theorem fullWipe_onlyChanges_of_live (s : State) (live : s.sustain.panelState = .live) :
    OnlyChanges [.shadow, .items, .stale, .scanner] s (fullWipe s) := by
  intro p hp
  rw [fullWipe_of_live s live]
  cases p <;> simp [SamePart] at hp ⊢

theorem fullWipe_onlyChanges_of_not_live (s : State) (h : s.sustain.panelState ≠ .live) :
    OnlyChanges [.shadow] s (fullWipe s) := by
  intro p hp
  rw [fullWipe_of_not_live s h]
  cases p <;> simp [SamePart] at hp ⊢

theorem fullWipe_chan (s : State) (ch : Channel) : (fullWipe s).chan ch = s.chan ch := by
  unfold fullWipe
  dsimp only
  split <;> simp

theorem fullWipe_port (s : State) : (fullWipe s).port = s.port := by
  unfold fullWipe
  dsimp only
  split <;> simp

theorem completeOrder_chan (ch : Channel) (s : State) :
    (completeOrder ch s).chan ch = { s.chan ch with order := none } := by
  rw [completeOrder, State.withChan_chan]

/-- The order of a WIPE that is carried out completes with the whole shadow image empty, and no flag but by comparison
(R31). -/
theorem wiped_frame (ch : Channel) (s : State) :
    let t := closeEvent (completeOrder ch (fullWipe (grantBegun ch s)))
    (∀ y g, shadowAt t y g = 0) ∧ t.chan ch = { s.chan ch with order := none } ∧ FlagsAfter [] s t := by
  refine ⟨fun y g => ?_, ?_, (FlagsAfter.of_flags ?_).closed⟩
  · simp [shadowAt, fullWipe_engine, sparseGet]
  · rw [closeEvent_chan, completeOrder_chan, fullWipe_chan, grantBegun_chan]
  · simp [fullWipe_port]

/-- What a WIPE of a LIVE panel leaves (R31, R67, R98). -/
theorem wiped_of_live (ch : Channel) (s : State) (live : s.sustain.panelState = .live) :
    let t := closeEvent (completeOrder ch (fullWipe (grantBegun ch s)))
    t.strikes = { s.strikes with items := [.bulk] } ∧ (∀ y, staleAt t y = .coherent) ∧
      t.tracker.scanner = { s.tracker.scanner with active := false, current := none } ∧
      OnlyChanges [.shadow, .arbiter, .items, .stale, .scanner, chanPart ch, .flags] s t := by
  have live' : (grantBegun ch s).sustain.panelState = .live := by simpa using live
  have frame := (((onlyChanges_grantBegun ch s).trans (fullWipe_onlyChanges_of_live _ live')).trans
    (onlyChanges_withChan ch _ _)).trans (onlyChanges_closeEvent (completeOrder ch (fullWipe (grantBegun ch s))))
  refine ⟨?_, fun y => ?_, ?_, frame.mono (by cases ch <;> decide)⟩
  · simp [fullWipe_of_live _ live']
  · simp [staleAt, fullWipe_of_live _ live', sparseGet]
  · simp [fullWipe_of_live _ live']

/-- A WIPE of a panel that is not LIVE changes the shadow image and its channel alone (R31). -/
theorem wiped_of_not_live (ch : Channel) (s : State) (h : s.sustain.panelState ≠ .live) :
    OnlyChanges [.shadow, .arbiter, chanPart ch, .flags] s
      (closeEvent (completeOrder ch (fullWipe (grantBegun ch s)))) := by
  have dark : (grantBegun ch s).sustain.panelState ≠ .live := by simpa using h
  have frame := (((onlyChanges_grantBegun ch s).trans (fullWipe_onlyChanges_of_not_live _ dark)).trans
    (onlyChanges_withChan ch _ _)).trans (onlyChanges_closeEvent (completeOrder ch (fullWipe (grantBegun ch s))))
  exact frame.mono (by cases ch <;> decide)

/-- A local WIPE whose local area has narrowed turns to the degraded path (R33). -/
theorem wipeUnit_narrowed (s : State) (h : s.supervision.area ≠ Rect.whole) :
    wipeUnit .localCh s =
      s.withLocalChan
        { s.localChan with
          order := (rectMeet s.localChan.context.clip s.supervision.area).map fun r => .wipeArea r 0 } :=
  if_pos ⟨rfl, h⟩

/-- Settles O20: the start is that of any granted order, and the grant is the bulk wipe or the turn to the degraded path. -/
theorem wipeTakesItsPath : Obligations.WipeTakesItsPath := by
  intro s ch
  refine ⟨fun head rest waiting reaches => ?_, fun granted carries => ?_, fun granted narrowed => ?_⟩
  · have notGranted : grantee (startedState ch .wipe head [] s) ≠ some ch := by
      have held : (startedState ch .wipe head [] s).engine.held.isSome = true := by
        simpa [startedState, beginEvent_eq] using waiting
      simp [grantee, held]
    obtain ⟨order, changes, flags⟩ := startedState_closed ch .wipe head [] s
    have words : (s.chan ch).fifo.drop 1 = rest := reaches.drop_fifo
    refine ⟨_, congrArg Host.Outcome.next (reaches.grantedCommand_waits notGranted), order.trans ?_, changes, flags⟩
    rw [decoded, reachWipe_eq ch _ _ reaches.idle, effectiveClip_eq, words]
    rfl
  · have area : ch = .lineCh ∨ (grantBegun ch s).supervision.area = Rect.whole := by
      simpa using carries
    have command := exec_wipe_granted ch s granted
    rw [wipeUnit_whole ch _ area] at command
    obtain ⟨dark, order, flags⟩ := wiped_frame ch s
    exact ⟨_, command, dark, order, flags, wiped_of_live ch s, wiped_of_not_live ch s⟩
  · have area : (grantBegun .localCh s).supervision.area ≠ Rect.whole := by
      simpa using narrowed
    have command := exec_wipe_granted .localCh s granted
    rw [wipeUnit_narrowed _ area] at command
    refine ⟨_, command, by simp, ?_, (FlagsAfter.of_flags ?_).closed⟩
    · exact ((onlyChanges_grantBegun .localCh s).trans (onlyChanges_withChan .localCh _ _)).trans (onlyChanges_closeEvent _)
    · simp

end Sys2Proof.Machine
end

section
/-! PROOFS. The cells of a LINE: its walk along the major axis, and the cut of the walk into spans. -/

namespace Sys2Proof.Machine

/-! ### The walk -/

theorem distance_eq_natAbs (a b : Nat) : distance a b = ((b : Int) - a).natAbs := by
  unfold distance
  omega

/-- A coordinate within the distance of its goal, as an integer. -/
theorem stepToward_cast (a b off : Nat) (h : off ≤ distance a b) :
    (stepToward a b off : Int) = a + off * (if a ≤ b then 1 else -1) := by
  unfold stepToward distance at *
  split <;> omega

theorem stepToward_zero (a b : Nat) : stepToward a b 0 = a := by
  unfold stepToward
  split <;> rfl

theorem stepToward_distance (a b : Nat) : stepToward a b (distance a b) = b := by
  unfold stepToward distance
  split <;> omega

/-- A coordinate on the way between two coordinates lies below what both lie below. -/
theorem stepToward_lt (a b off n : Nat) (h : off ≤ distance a b) (ha : a < n) (hb : b < n) : stepToward a b off < n := by
  unfold stepToward distance at *
  split <;> omega

theorem stepToward_inj (a b off off' : Nat) (h : off ≤ distance a b) (h' : off' ≤ distance a b)
    (e : stepToward a b off = stepToward a b off') : off = off' := by
  unfold stepToward distance at *
  split at e <;> omega

/-- Two coordinates of one group are less than 16 steps apart. -/
theorem stepToward_near (a b i j : Nat) (hj : j ≤ distance a b) (e : stepToward a b i / 16 = stepToward a b j / 16) :
    j < i + 16 := by
  unfold stepToward distance at *
  split at e <;> omega

theorem minorOffset_zero (minor major : Nat) : minorOffset 0 minor major = 0 := by
  unfold minorOffset
  split
  · rfl
  · rw [Nat.mul_zero, Nat.zero_mul, Nat.zero_add]
    exact Nat.div_eq_of_lt (by omega)

/-- The minor offset of the last step is the whole minor difference (R21). -/
theorem minorOffset_last (minor major : Nat) (h : minor ≤ major) : minorOffset major minor major = minor := by
  unfold minorOffset
  split
  · omega
  · rename_i nonzero
    have split' : 2 * major * minor + major = major + 2 * major * minor := Nat.add_comm _ _
    rw [split', Nat.add_mul_div_left _ _ (by omega), Nat.div_eq_of_lt (by omega), Nat.zero_add]

/-- The minor offset grows with the step (R21). -/
theorem minorOffset_mono (i j minor major : Nat) (h : i ≤ j) : minorOffset i minor major ≤ minorOffset j minor major := by
  unfold minorOffset
  split
  · exact Nat.le_refl _
  · exact Nat.div_le_div_right (Nat.add_le_add_right (Nat.mul_le_mul_right _ (Nat.mul_le_mul_left _ h)) _)

theorem minorOffset_le (i minor major : Nat) (h : minor ≤ major) (hi : i ≤ major) : minorOffset i minor major ≤ minor :=
  Nat.le_trans (minorOffset_mono i major minor major hi) (Nat.le_of_eq (minorOffset_last minor major h))

/-- The minor offset without the guard for a LINE of one cell. -/
theorem minorOffset_eq (i minor major : Nat) : minorOffset i minor major = (2 * i * minor + major) / (2 * major) := by
  unfold minorOffset
  split
  · rename_i zero
    rw [zero, Nat.mul_zero, Nat.div_zero]
  · rfl

/-- The walk of a LINE whose major axis is x (R21). -/
theorem lineCell_of_xMajor (p q : Point) (i : Nat) (h : distance p.y q.y ≤ distance p.x q.x) :
    lineCell p q i =
      (stepToward p.x q.x i, stepToward p.y q.y (minorOffset i (distance p.y q.y) (distance p.x q.x))) :=
  if_pos h

/-- The walk of a LINE whose major axis is y (R21). -/
theorem lineCell_of_yMajor (p q : Point) (i : Nat) (h : ¬ distance p.y q.y ≤ distance p.x q.x) :
    lineCell p q i =
      (stepToward p.x q.x (minorOffset i (distance p.x q.x) (distance p.y q.y)), stepToward p.y q.y i) :=
  if_neg h

theorem lineSteps_of_xMajor (p q : Point) (h : distance p.y q.y ≤ distance p.x q.x) : lineSteps p q = distance p.x q.x :=
  Nat.max_eq_left h

theorem lineSteps_of_yMajor (p q : Point) (h : ¬ distance p.y q.y ≤ distance p.x q.x) :
    lineSteps p q = distance p.y q.y :=
  Nat.max_eq_right (by omega)

/-- No cell of a LINE is placed twice (R21): the coordinate along the major axis tells the steps apart. -/
theorem lineCell_inj (p q : Point) (i j : Nat) (hi : i ≤ lineSteps p q) (hj : j ≤ lineSteps p q)
    (e : lineCell p q j = lineCell p q i) : j = i := by
  by_cases major : distance p.y q.y ≤ distance p.x q.x
  · rw [lineSteps_of_xMajor p q major] at hi hj
    rw [lineCell_of_xMajor p q i major, lineCell_of_xMajor p q j major] at e
    exact stepToward_inj _ _ _ _ hj hi (congrArg Prod.fst e)
  · rw [lineSteps_of_yMajor p q major] at hi hj
    rw [lineCell_of_yMajor p q i major, lineCell_of_yMajor p q j major] at e
    exact stepToward_inj _ _ _ _ hj hi (congrArg Prod.snd e)

/-- Every cell of a LINE lies on the panel. -/
theorem lineCell_lt (p q : Point) (i : Nat) (hi : i ≤ lineSteps p q) :
    (lineCell p q i).1 < 512 ∧ (lineCell p q i).2 < 512 := by
  have x (off : Nat) (h : off ≤ distance p.x q.x) := stepToward_lt p.x q.x off 512 h p.x.isLt q.x.isLt
  have y (off : Nat) (h : off ≤ distance p.y q.y) := stepToward_lt p.y q.y off 512 h p.y.isLt q.y.isLt
  by_cases major : distance p.y q.y ≤ distance p.x q.x
  · rw [lineSteps_of_xMajor p q major] at hi
    rw [lineCell_of_xMajor p q i major]
    exact ⟨x i hi, y _ (minorOffset_le i _ _ major hi)⟩
  · rw [lineSteps_of_yMajor p q major] at hi
    rw [lineCell_of_yMajor p q i major]
    exact ⟨x _ (minorOffset_le i _ _ (by omega) hi), y i hi⟩

theorem lineCell_zero (p q : Point) : lineCell p q 0 = (p.x.val, p.y.val) := by
  by_cases major : distance p.y q.y ≤ distance p.x q.x
  · rw [lineCell_of_xMajor p q 0 major, minorOffset_zero, stepToward_zero, stepToward_zero]
  · rw [lineCell_of_yMajor p q 0 major, minorOffset_zero, stepToward_zero, stepToward_zero]

theorem lineCell_last (p q : Point) : lineCell p q (lineSteps p q) = (q.x.val, q.y.val) := by
  by_cases major : distance p.y q.y ≤ distance p.x q.x
  · rw [lineSteps_of_xMajor p q major, lineCell_of_xMajor p q _ major, minorOffset_last _ _ major, stepToward_distance,
      stepToward_distance]
  · rw [lineSteps_of_yMajor p q major, lineCell_of_yMajor p q _ major, minorOffset_last _ _ (by omega),
      stepToward_distance, stepToward_distance]

/-- Settles O11, by the walk along either major axis. -/
theorem lineWalksItsMajorAxis : Obligations.LineWalksItsMajorAxis := by
  intro p q i hi dx dy sx sy
  have hx : distance p.x q.x = dx := distance_eq_natAbs _ _
  have hy : distance p.y q.y = dy := distance_eq_natAbs _ _
  have walkX (off : Nat) (h : off ≤ dx) : (stepToward p.x q.x off : Int) = p.x.val + off * sx :=
    stepToward_cast _ _ off (hx ▸ h)
  have walkY (off : Nat) (h : off ≤ dy) : (stepToward p.y q.y off : Int) = p.y.val + off * sy :=
    stepToward_cast _ _ off (hy ▸ h)
  refine ⟨?_, fun major => ?_, fun major => ?_, lineCell_zero p q, lineCell_last p q,
    fun j hj e => lineCell_inj p q i j hi hj e⟩
  · rw [lineSteps, hx, hy]
    split <;> omega
  · have major' : distance p.y q.y ≤ distance p.x q.x := by rwa [hx, hy]
    rw [lineSteps_of_xMajor p q major', hx] at hi
    rw [lineCell_of_xMajor p q i major', hx, hy, ← minorOffset_eq, Int.mul_comm sy]
    exact ⟨walkX i hi, walkY _ (minorOffset_le i dy dx major hi)⟩
  · have major' : ¬ distance p.y q.y ≤ distance p.x q.x := by rw [hx, hy]; omega
    rw [lineSteps_of_yMajor p q major', hy] at hi
    rw [lineCell_of_yMajor p q i major', hx, hy, ← minorOffset_eq, Int.mul_comm sx]
    exact ⟨walkY i hi, walkX _ (minorOffset_le i dx dy (by omega) hi)⟩

/-! ### The cut into spans -/

/-- Step `k` of a LINE lies in row `y` and group `g`. -/
def OnRowGroup (p q : Point) (y g k : Nat) : Prop := (lineCell p q k).2 = y ∧ (lineCell p q k).1 / 16 = g

/-- Two steps of one row-group are less than 16 apart: along x they lie in one group, and along y in one row. -/
theorem OnRowGroup.lt_add {p q : Point} {y g i j : Nat} (hi : OnRowGroup p q y g i) (hj : OnRowGroup p q y g j)
    (order : i ≤ j) (last : j ≤ lineSteps p q) : j < i + 16 := by
  obtain ⟨rowI, groupI⟩ := hi
  obtain ⟨rowJ, groupJ⟩ := hj
  by_cases major : distance p.y q.y ≤ distance p.x q.x
  · rw [lineSteps_of_xMajor p q major] at last
    rw [lineCell_of_xMajor p q _ major] at groupI groupJ
    exact stepToward_near _ _ _ _ last (groupI.trans groupJ.symm)
  · rw [lineSteps_of_yMajor p q major] at last
    rw [lineCell_of_yMajor p q _ major] at rowI rowJ
    have same := stepToward_inj _ _ _ _ (Nat.le_trans order last) last (rowI.trans rowJ.symm)
    omega

/-- What a run of consecutive steps from `i` in row `y` and group `g` is, followed through at most `fuel` steps and with the
cells `acc` before it (R24). -/
structure IsLineRun (p q : Point) (y g fuel i : Nat) (acc : Cells) (run : Nat × Cells) : Prop where
  start_le : i ≤ run.1
  le_fuel : run.1 ≤ i + fuel
  le_steps : i ≤ lineSteps p q + 1 → run.1 ≤ lineSteps p q + 1
  inside : ∀ k, i ≤ k → k < run.1 → OnRowGroup p q y g k
  cells : ∀ b, b < 16 →
    (run.2.getLsbD b = true ↔ acc.getLsbD b = true ∨ ∃ k, i ≤ k ∧ k < run.1 ∧ (lineCell p q k).1 % 16 = b)
  ends : run.1 < i + fuel → run.1 ≤ lineSteps p q → ¬ OnRowGroup p q y g run.1

/-- A run that ends where it begins. -/
theorem IsLineRun.empty (p q : Point) (y g fuel i : Nat) (acc : Cells)
    (ends : 0 < fuel → i ≤ lineSteps p q → ¬ OnRowGroup p q y g i) : IsLineRun p q y g fuel i acc (i, acc) where
  start_le := Nat.le_refl i
  le_fuel := Nat.le_add_right i fuel
  le_steps := id
  inside k from' below := absurd below (Nat.not_lt.mpr from')
  cells b _ := ⟨.inl, fun h => h.elim id fun ⟨_, from', below, _⟩ => absurd below (Nat.not_lt.mpr from')⟩
  ends more := ends (by dsimp only at more; omega)

/-- A run goes on from the step behind its first. -/
theorem IsLineRun.cons {p q : Point} {y g fuel i : Nat} {acc : Cells} {run : Nat × Cells} (first : OnRowGroup p q y g i)
    (last : i ≤ lineSteps p q)
    (h : IsLineRun p q y g fuel (i + 1) (acc ||| BitVec.twoPow 16 ((lineCell p q i).1 % 16)) run) :
    IsLineRun p q y g (fuel + 1) i acc run where
  start_le := Nat.le_of_succ_le h.start_le
  le_fuel := by have := h.le_fuel; omega
  le_steps _ := h.le_steps (by omega)
  inside k from' below := by
    rcases Nat.eq_or_lt_of_le from' with rfl | later
    · exact first
    · exact h.inside k later below
  cells b hb := by
    have behind := h.start_le
    rw [h.cells b hb, BitVec.getLsbD_or, Bool.or_eq_true, or_assoc]
    refine or_congr_right ⟨?_, ?_⟩
    · rintro (here | ⟨k, from', below, at'⟩)
      · exact ⟨i, Nat.le_refl i, by omega, by simpa [hb, eq_comm] using here⟩
      · exact ⟨k, by omega, below, at'⟩
    · rintro ⟨k, from', below, at'⟩
      rcases Nat.eq_or_lt_of_le from' with rfl | later
      · exact .inl (by simp [at', hb])
      · exact .inr ⟨k, later, below, at'⟩
  ends more := h.ends (by omega)

theorem lineRun_isLineRun (p q : Point) (y g : Nat) :
    ∀ fuel i acc, IsLineRun p q y g fuel i acc (lineRun p q y g fuel i acc)
  | 0, i, acc => .empty p q y g 0 i acc fun more => absurd more (Nat.lt_irrefl 0)
  | fuel + 1, i, acc => by
    unfold lineRun
    dsimp only
    split
    · rename_i goesOn
      obtain ⟨last, row, group⟩ := goesOn
      exact .cons ⟨row, group⟩ last (lineRun_isLineRun p q y g fuel (i + 1) _)
    · rename_i stops
      exact .empty p q y g (fuel + 1) i acc fun _ last here => stops ⟨last, here⟩

/-- The run that a span of a LINE is. -/
theorem lineSpan_isLineRun (p q : Point) (i : Nat) :
    IsLineRun p q (lineCell p q i).2 ((lineCell p q i).1 / 16) 16 i 0 ((lineSpan p q i).2, (lineSpan p q i).1.box) :=
  lineRun_isLineRun p q _ _ 16 i 0

/-- A span of a LINE holds a step at least (R24). -/
theorem lt_lineSpan (p q : Point) (i : Nat) (hi : i ≤ lineSteps p q) : i < (lineSpan p q i).2 := by
  have run := lineSpan_isLineRun p q i
  refine Nat.lt_of_le_of_ne run.start_le fun stays => ?_
  have ends := run.ends
  dsimp only at ends
  rw [← stays] at ends
  exact ends (by omega) hi ⟨rfl, rfl⟩

/-- A span of a LINE ends where its row-group does (R24). -/
theorem lineSpan_ends (p q : Point) (i : Nat) (hj : (lineSpan p q i).2 ≤ lineSteps p q) :
    ¬ OnRowGroup p q (lineCell p q i).2 ((lineCell p q i).1 / 16) (lineSpan p q i).2 := by
  have run := lineSpan_isLineRun p q i
  intro here
  have near := OnRowGroup.lt_add ⟨rfl, rfl⟩ here run.start_le hj
  exact run.ends near hj here

theorem lineSpan_row (p q : Point) (i : Nat) (hi : i ≤ lineSteps p q) :
    (lineSpan p q i).1.row.val = (lineCell p q i).2 :=
  Nat.mod_eq_of_lt (lineCell_lt p q i hi).2

theorem lineSpan_group (p q : Point) (i : Nat) (hi : i ≤ lineSteps p q) :
    (lineSpan p q i).1.group.val = (lineCell p q i).1 / 16 := by
  have panel := (lineCell_lt p q i hi).1
  exact Nat.mod_eq_of_lt (by omega)

/-- Settles O12: each span is the run from its first step on. -/
theorem lineIsCutIntoSpans : Obligations.LineIsCutIntoSpans := by
  intro p q i hi sp j
  have run := lineSpan_isLineRun p q i
  have inside (k : Nat) (from' : i ≤ k) (below : k < j) := run.inside k from' below
  refine ⟨lt_lineSpan p q i hi, run.le_steps (by omega), rfl, rfl, fun k from' below => ?_, fun b lit => ?_, fun more => ?_⟩
  · obtain ⟨row, group⟩ := inside k from' below
    refine ⟨row.trans (lineSpan_row p q i hi).symm, group.trans (lineSpan_group p q i hi).symm, ?_⟩
    exact (run.cells _ (Nat.mod_lt _ (by decide))).mpr (.inr ⟨k, from', below, rfl⟩)
  · have cell : b < 16 := BitVec.lt_of_getLsbD lit
    rcases (run.cells b cell).mp lit with unlit | step
    · simp at unlit
    · exact step
  · rw [lineSpan_row p q i hi, lineSpan_group p q i hi, ← Classical.not_and_iff_not_or_not]
    exact lineSpan_ends p q i more

end Sys2Proof.Machine
end

section
/-! PROOFS. The spans of rectangles and of RASTER rows: their row-groups, their cells, and that a rectangle is covered once. -/

namespace Sys2Proof.Machine

/-! ### Rectangles -/

/-- The columns of a rectangle fall in one group at least. -/
theorem groupsAcross_pos (lo hi : Nat) : 0 < groupsAcross lo hi := Nat.succ_pos _

/-- A span of a rectangle lies in one of its rows (R25). -/
theorem rectSpan_row_lt (r : Rect) (n : Nat) (hn : n < rectSpans r) :
    n / groupsAcross r.xLo r.xHi < r.yHi.val - r.yLo.val + 1 :=
  Nat.div_lt_of_lt_mul (by rw [Nat.mul_comm]; exact hn)

theorem rectSpan_row (r : Rect) (wipe : Bool) (n : Nat) :
    (rectSpan r wipe n).row.val = r.yHi.val - n / groupsAcross r.xLo r.xHi :=
  Nat.mod_eq_of_lt (Nat.lt_of_le_of_lt (Nat.sub_le _ _) r.yHi.isLt)

/-- A span of a rectangle lies in one of the groups that its columns fall in (R25). -/
theorem rectSpan_group (r : Rect) (wipe : Bool) (n : Nat) (wide : r.xLo ≤ r.xHi) :
    (rectSpan r wipe n).group.val = r.xLo.val / 16 + n % groupsAcross r.xLo r.xHi := by
  have right := r.xHi.isLt
  have order : r.xLo.val ≤ r.xHi.val := wide
  have column := Nat.mod_lt n (groupsAcross_pos r.xLo r.xHi)
  refine Nat.mod_eq_of_lt ?_
  unfold groupsAcross at *
  omega

/-- The cells of a rectangle's span are those of its group within the rectangle's columns (R25). -/
theorem rectSpan_box_getLsbD (r : Rect) (wipe : Bool) (n k : Nat) (wide : r.xLo ≤ r.xHi) (hk : k < 16) :
    (rectSpan r wipe n).box.getLsbD k =
      (decide (r.xLo.val ≤ 16 * (rectSpan r wipe n).group.val + k) &&
        decide (16 * (rectSpan r wipe n).group.val + k ≤ r.xHi.val)) := by
  rw [rectSpan_group r wipe n wide]
  exact columnCells_getLsbD _ _ _ k hk

/-- The number of the span in which cell (x, y) of a rectangle lies (R25). -/
def rectIndex (r : Rect) (x y : Nat) : Nat := (r.yHi.val - y) * groupsAcross r.xLo r.xHi + (x / 16 - r.xLo.val / 16)

/-- A cell of a rectangle lies in its span's row and group (R25). -/
theorem rectIndex_spec (r : Rect) (x y : Nat) (h : inRect r x y = true) :
    rectIndex r x y < rectSpans r ∧ rectIndex r x y / groupsAcross r.xLo r.xHi = r.yHi.val - y ∧
      rectIndex r x y % groupsAcross r.xLo r.xHi = x / 16 - r.xLo.val / 16 := by
  obtain ⟨left, right, low, high⟩ : r.xLo.val ≤ x ∧ x ≤ r.xHi.val ∧ r.yLo.val ≤ y ∧ y ≤ r.yHi.val := by
    simpa [inRect, and_assoc] using h
  have column : x / 16 - r.xLo.val / 16 < groupsAcross r.xLo r.xHi := by
    unfold groupsAcross
    omega
  refine ⟨?_, ?_, ?_⟩
  · calc rectIndex r x y < (r.yHi.val - y) * groupsAcross r.xLo r.xHi + groupsAcross r.xLo r.xHi :=
          Nat.add_lt_add_left column _
      _ = (r.yHi.val - y + 1) * groupsAcross r.xLo r.xHi := (Nat.succ_mul _ _).symm
      _ ≤ rectSpans r := Nat.mul_le_mul_right _ (by omega)
  · rw [rectIndex, Nat.mul_comm, Nat.mul_add_div (groupsAcross_pos _ _), Nat.div_eq_of_lt column, Nat.add_zero]
  · rw [rectIndex, Nat.mul_comm, Nat.mul_add_mod, Nat.mod_eq_of_lt column]

/-- A cell lies in the box of a rectangle's span exactly when it is a cell of the rectangle in the span's row-group; the cell's
place tells the span. -/
theorem rectSpan_holds_iff (r : Rect) (wipe : Bool) (wide : r.xLo ≤ r.xHi) (tall : r.yLo ≤ r.yHi) (n : Nat)
    (hn : n < rectSpans r) (y : Coord) (g : Group) (k : Nat) (hk : k < 16) :
    (y = (rectSpan r wipe n).row ∧ g = (rectSpan r wipe n).group ∧ (rectSpan r wipe n).box.getLsbD k = true) ↔
      inRect r (16 * g.val + k) y = true ∧ n = rectIndex r (16 * g.val + k) y := by
  have across := groupsAcross_pos r.xLo r.xHi
  have rows := rectSpan_row_lt r n hn
  have bottom : r.yLo.val ≤ r.yHi.val := tall
  have row := rectSpan_row r wipe n
  have group := rectSpan_group r wipe n wide
  have number := Nat.div_add_mod n (groupsAcross r.xLo r.xHi)
  generalize down : n / groupsAcross r.xLo r.xHi = level at rows row number
  constructor
  · rintro ⟨rfl, rfl, lit⟩
    rw [rectSpan_box_getLsbD r wipe n k wide hk, Bool.and_eq_true, decide_eq_true_iff, decide_eq_true_iff] at lit
    refine ⟨?_, ?_⟩
    · simp only [inRect, Bool.and_eq_true, decide_eq_true_iff]
      omega
    · have place : (16 * (rectSpan r wipe n).group.val + k) / 16 - r.xLo.val / 16 = n % groupsAcross r.xLo r.xHi := by omega
      have below : r.yHi.val - (rectSpan r wipe n).row.val = level := by omega
      rw [rectIndex, place, below, Nat.mul_comm, number]
  · rintro ⟨inside, here⟩
    obtain ⟨-, quotient, remainder⟩ := rectIndex_spec r _ _ inside
    rw [← here] at quotient remainder
    rw [down] at quotient
    obtain ⟨left, right, low, high⟩ :
        r.xLo.val ≤ 16 * g.val + k ∧ 16 * g.val + k ≤ r.xHi.val ∧ r.yLo.val ≤ y.val ∧ y.val ≤ r.yHi.val := by
      simpa [inRect, and_assoc] using inside
    have sameGroup : g = (rectSpan r wipe n).group := Fin.ext (by omega)
    refine ⟨Fin.ext (by omega), sameGroup, ?_⟩
    rw [rectSpan_box_getLsbD r wipe n k wide hk, ← sameGroup, decide_eq_true left, decide_eq_true right]
    rfl

/-- Settles O14: quotient and remainder of a span's number by the groups across are its row and its group. -/
theorem rectangleIsCutIntoSpans : Obligations.RectangleIsCutIntoSpans := by
  intro r wipe wide tall across
  refine ⟨rfl, fun n hn => ⟨rectSpan_row r wipe n, rectSpan_group r wipe n wide, rfl, rfl,
    fun k hk => rectSpan_box_getLsbD r wipe n k wide hk⟩, fun x y inside => ?_, fun n m hn hm sameRow sameGroup => ?_⟩
  · obtain ⟨below, -, -⟩ := rectIndex_spec r x y inside
    have panel := x.isLt
    have cell : 16 * (group (x.val / 16)).val + x.val % 16 = x.val := by
      show 16 * (x.val / 16 % 32) + x.val % 16 = x.val
      omega
    obtain ⟨row, place, lit⟩ :=
      (rectSpan_holds_iff r wipe wide tall _ below y (group (x.val / 16)) (x.val % 16) (by omega)).mpr
        (by rw [cell]; exact ⟨inside, rfl⟩)
    refine ⟨_, below, row.symm, ?_, lit⟩
    rw [← place]
    exact Nat.mod_eq_of_lt (by omega)
  · have row := congrArg Fin.val sameRow
    have group := congrArg Fin.val sameGroup
    have rowsN := rectSpan_row_lt r n hn
    have rowsM := rectSpan_row_lt r m hm
    have bottom : r.yLo.val ≤ r.yHi.val := tall
    rw [rectSpan_row, rectSpan_row] at row
    rw [rectSpan_group r wipe n wide, rectSpan_group r wipe m wide] at group
    have quotient : n / groupsAcross r.xLo r.xHi = m / groupsAcross r.xLo r.xHi := by omega
    have remainder : n % groupsAcross r.xLo r.xHi = m % groupsAcross r.xLo r.xHi := by omega
    rw [← Nat.div_add_mod n (groupsAcross r.xLo r.xHi), quotient, remainder, Nat.div_add_mod]

/-! ### RASTER rows -/

/-- Settles O16: a row's spans take the groups from its start on, cut at the panel's edge. -/
theorem rasterRowIsCutIntoSpans : Obligations.RasterRowIsCutIntoSpans := by
  intro start width image n words narrow wide drawn hn right sp
  have edge := start.x.isLt
  have top := start.y.isLt
  have number : n < right / 16 - start.x.val / 16 + 1 := hn
  have atEdge : right ≤ 511 := Nat.min_le_right _ _
  have fromStart : start.x.val ≤ right := Nat.le_min.mpr ⟨by omega, by omega⟩
  have group : sp.group.val = start.x.val / 16 + n := Nat.mod_eq_of_lt (by omega)
  refine ⟨rfl, Nat.mod_eq_of_lt (by omega), group, rfl, fun k hk => ⟨?_, ?_⟩⟩
  · rw [group]
    exact columnCells_getLsbD _ _ _ k hk
  · rw [group]
    exact cellsOf_getLsbD _ k hk

end Sys2Proof.Machine
end

section
/-! PROOFS. An order drawn alone on a panel that is not LIVE: the steps that its event takes, and the cells that they leave. -/

namespace Sys2Proof.Machine

/-! ### The steps of an event -/

/-- The next `n` steps of the part lead from `s` to `t`. -/
def Runs (n : Nat) (s t : State) : Prop := ∀ fuel, settle (n + fuel) s = settle fuel t

theorem Runs.trans {m n : Nat} {s t u : State} (h : Runs m s t) (k : Runs n t u) : Runs (m + n) s u := fun fuel => by
  rw [Nat.add_assoc, h, k]

theorem Runs.one {s : State} {i : Internal} (due : dueStep s = some i) : Runs 1 s (runInternal i s) := fun fuel => by
  rw [Nat.add_comm, settle, settleAmong, show dueAmong internalOrder s = some i from due]
  rfl

/-- Steps that lead to a state in which none is due are all that fuel enough for them follows. -/
theorem Runs.settle_eq {n fuel : Nat} {s t : State} (h : Runs n s t) (enough : n ≤ fuel) (rest : dueStep t = none) :
    settle fuel s = t := by
  obtain ⟨more, rfl⟩ := Nat.exists_eq_add_of_le enough
  rw [h, settle_of_rest _ _ rest]

/-! ### A channel that draws alone -/

/-- Channel `ch` has the part for itself: it is in ACCEPT, the engine is FREE, the other channel has nothing, and no row is one
to strike or to restore, as on a panel that is not LIVE. -/
structure Alone (ch : Channel) (s : State) : Prop where
  shadow : TableWf 0 16384 s.engine.shadow
  stale : ∀ y, isStale s y = true
  idle : s.tracker.scanner.active = false
  free : s.engine.held = none
  otherOrder : (s.chan (otherChannel ch)).order = none
  otherFifo : (s.chan (otherChannel ch)).fifo = []
  accept : (s.chan ch).response = .accept
  shut : opening s = .shut

namespace Alone

variable {ch : Channel} {s t : State}

/-- A state that differs in the shadow image, in the channel itself and in flags is one in which the channel is alone too. -/
theorem of_same (h : Alone ch s) (shadow : TableWf 0 16384 t.engine.shadow) (tracker : t.tracker = s.tracker)
    (free : t.engine.held = none) (other : t.chan (otherChannel ch) = s.chan (otherChannel ch))
    (accept : (t.chan ch).response = .accept) (shut : opening t = .shut) : Alone ch t where
  shadow := shadow
  stale y := by rw [isStale, staleAt, tracker]; exact h.stale y
  idle := by rw [tracker]; exact h.idle
  free := free
  otherOrder := by rw [other]; exact h.otherOrder
  otherFifo := by rw [other]; exact h.otherFifo
  accept := accept
  shut := shut

theorem withChan (h : Alone ch s) (c : Chan) (accept : c.response = .accept) : Alone ch (s.withChan ch c) :=
  h.of_same (by simpa using h.shadow) (by simp) (by simpa using h.free)
    (State.withChan_chan_ne _ _ (otherChannel_ne ch)) (by rwa [State.withChan_chan])
    (by rw [opening, State.withChan_event]; exact h.shut)

theorem endEvent (h : Alone ch s) : Alone ch (endEvent s) :=
  h.of_same (by simpa using h.shadow) (by simp) (by simpa using h.free) (by cases ch <;> simp [otherChannel])
    (by have := h.accept; cases ch <;> simpa using this) (by simp only [opening, endEvent_event])

/-- Of the steps of the other channel, the render and the restore none is due. -/
theorem others_not_due (h : Alone ch s) :
    decodeDue (otherChannel ch) s = false ∧ droppedRowDue (otherChannel ch) s = false ∧
      presents s (otherChannel ch) = false ∧ renderDue s = false ∧ restoreDue s = false := by
  refine ⟨?_, ?_, ?_, ?_, ?_⟩
  · simp [decodeDue, reached, reachedIn, h.otherOrder, h.otherFifo]
  · simp [droppedRowDue, droppedRowReady, h.otherOrder]
  · simp [presents, unitReady, spanReady, formSpan, h.otherOrder]
  · simp [renderDue, h.free]
  · simp [restoreDue, scannerClaims, h.idle]

/-- The arbiter grants the channel what it presents, and nothing else. -/
theorem grantee_eq (h : Alone ch s) : grantee s = if presents s ch then some ch else none := by
  obtain ⟨-, -, other, -⟩ := h.others_not_due
  rw [grantee_of_free s h.free]
  cases ch <;> simp only [otherChannel] at other <;> simp [other]

/-- The step that is due is the channel's own: its decoder's, its dropped row's, or its grant. -/
theorem dueStep_eq (h : Alone ch s) :
    dueStep s =
      if decodeDue ch s then some (.decode ch)
      else if droppedRowDue ch s then some (.droppedRow ch)
      else if presents s ch then some .grant else none := by
  obtain ⟨decode, row, -, render, restore⟩ := h.others_not_due
  have granted : isDue .grant s = presents s ch := by
    rw [isDue, h.grantee_eq]
    cases presents s ch <;> rfl
  cases ch with
  | lineCh | localCh =>
    simp only [otherChannel] at decode row
    simp only [dueStep, dueAmong, internalOrder, List.find?, granted]
    simp only [isDue, decode, row, render, restore]
    cases decodeDue _ s <;> cases droppedRowDue _ s <;> cases presents s _ <;> rfl

/-- A channel that draws alone is at rest behind its last word. -/
theorem dueStep_none (h : Alone ch s) (order : (s.chan ch).order = none) (fifo : (s.chan ch).fifo = []) :
    dueStep s = none := by
  have decode : decodeDue ch s = false := by simp [decodeDue, reached, reachedIn, order, fifo]
  have row : droppedRowDue ch s = false := by simp [droppedRowDue, droppedRowReady, order]
  have piece : presents s ch = false := by simp [presents, unitReady, spanReady, formSpan, order]
  rw [h.dueStep_eq, decode, row, piece]
  rfl

end Alone

/-- On a panel that is not LIVE a channel is alone when the other has nothing and the engine is FREE. -/
theorem alone_goOn (ch : Channel) (s : State) (wf : MemoryWf s) (legal : PanelLegal s)
    (notLive : s.sustain.panelState ≠ .live) (free : s.engine.held = none)
    (otherOrder : (s.chan (otherChannel ch)).order = none) (otherFifo : (s.chan (otherChannel ch)).fifo = [])
    (accept : (s.chan ch).response = .accept) : Alone ch (goOn s) := by
  obtain ⟨-, blank, idle⟩ := legal.1 notLive
  have chan (c : Channel) : (goOn s).chan c = s.chan c := State.withEvent_chan s _ c
  refine ⟨wf.1, fun y => ?_, idle, free, by rw [chan, otherOrder], by rw [chan, otherFifo], by rw [chan, accept], ?_⟩
  · have row : staleAt (goOn s) y = .blank := by
      show sparseGet .coherent s.tracker.stale y.val = .blank
      rw [blank, allBlank_get]
    rw [isStale, row]
    rfl
  · cases e : s.event <;> simp [opening, goOn, openEvent, e]

/-! ### The cells that are drawn -/

/-- Of the cells of row-group after row-group, exactly those with `drawn` that channel `ch` may draw have been combined, each
once (R10, R11). -/
def CellsDrawn (ch : Channel) (drawn : Nat → Nat → Prop) (s t : State) : Prop :=
  ∀ (y : Coord) (g : Group) (k : Nat), k < 16 →
    (drawn (16 * g.val + k) y → mayDraw s ch (16 * g.val + k) y = true →
      shadowCell t y g k = drawnCell (s.chan ch).context.mode (shadowCell s y g k) true true) ∧
    (¬ drawn (16 * g.val + k) y ∨ mayDraw s ch (16 * g.val + k) y = false → shadowCell t y g k = shadowCell s y g k)

/-- What a channel may draw, and the mode it draws in, are the same in both states. -/
structure SameBrush (ch : Channel) (s t : State) : Prop where
  area : t.supervision.area = s.supervision.area
  clip : (t.chan ch).context.clip = (s.chan ch).context.clip
  mode : (t.chan ch).context.mode = (s.chan ch).context.mode

theorem SameBrush.mayDraw {ch : Channel} {s t : State} (h : SameBrush ch s t) (x y : Nat) :
    Machine.mayDraw t ch x y = Machine.mayDraw s ch x y := by
  rw [Machine.mayDraw, h.area, h.clip, Machine.mayDraw]

namespace CellsDrawn

variable {ch : Channel} {drawn more : Nat → Nat → Prop} {s t u : State}

theorem congr (h : CellsDrawn ch drawn s t) (same : ∀ x y, drawn x y ↔ more x y) : CellsDrawn ch more s t := by
  have e : drawn = more := funext fun x => funext fun y => propext (same x y)
  exact e ▸ h

/-- Before and behind a drawing the shadow image alone counts. -/
theorem of_same (h : CellsDrawn ch drawn s t) {s' t' : State} (before : s.engine.shadow = s'.engine.shadow)
    (brush : SameBrush ch s' s) (after : t'.engine.shadow = t.engine.shadow) : CellsDrawn ch drawn s' t' := by
  intro y g k hk
  simpa only [shadowCell, shadowAt, before, after, brush.mayDraw, brush.mode] using h y g k hk

/-- Two drawings without a common cell are one. -/
theorem trans (first : CellsDrawn ch drawn s t) (brush : SameBrush ch s t) (second : CellsDrawn ch more t u)
    (apart : ∀ x y, drawn x y → ¬ more x y) : CellsDrawn ch (fun x y => drawn x y ∨ more x y) s u := by
  intro y g k hk
  obtain ⟨drawn₁, kept₁⟩ := first y g k hk
  obtain ⟨drawn₂, kept₂⟩ := second y g k hk
  rw [brush.mayDraw] at drawn₂ kept₂
  rw [brush.mode] at drawn₂
  refine ⟨fun here may => ?_, fun out => ?_⟩
  · rcases here with early | late
    · rw [kept₂ (.inl (apart _ _ early)), drawn₁ early may]
    · rw [drawn₂ late may, kept₁ (.inl fun early => apart _ _ early late)]
  · rw [not_or] at out
    rw [kept₂ (out.imp And.right id), kept₁ (out.imp And.left id)]

/-- A span whose on-set is its box draws the cells of its box. -/
theorem of_span {p : Span} (drawn : ShadowDrawn s t { channel := ch, span := p }) (full : p.on = p.box)
    (order : p.wipe = false)
    (holds : ∀ (y : Coord) (g : Group) (k : Nat), k < 16 →
      (y = p.row ∧ g = p.group ∧ p.box.getLsbD k = true ↔ more (16 * g.val + k) y)) :
    CellsDrawn ch more s t := by
  intro y g k hk
  have mode : spanMode s ch p = (s.chan ch).context.mode := by simp [spanMode, order]
  rw [← holds y g k hk, drawn y g k hk]
  dsimp only
  rw [mode, full]
  refine ⟨fun ⟨row, group, lit⟩ may => ?_, fun out => ?_⟩
  · rw [if_pos ⟨row, group⟩, lit, may]
    rfl
  · split
    · rename_i here
      have left : (p.box.getLsbD k && mayDraw s ch (16 * g.val + k) y) = false := by
        rcases out with notHeld | notMay
        · rw [Bool.eq_false_iff.mpr fun lit => notHeld ⟨here.1, here.2, lit⟩, Bool.false_and]
        · rw [notMay, Bool.and_false]
      rw [left, Bool.false_and, drawnCell_outside]
    · rfl

end CellsDrawn

/-! ### The walk of an order through its spans -/

/-- An order as a walk: its record at each step, where it stops, the span that begins at a step with the step that begins the
next, and the cells of each step. -/
structure SpanWalk where
  record : Nat → Order
  stop : Nat
  span : Nat → Span
  next : Nat → Nat
  cell : Nat → Nat → Nat → Prop

/-- The cells of the steps from `i` on. -/
def SpanWalk.cellsFrom (w : SpanWalk) (i x y : Nat) : Prop := ∃ m, i ≤ m ∧ m < w.stop ∧ w.cell m x y

/-- The walk is what the record presents and how its renders go on; each span holds the cells of its steps, and no two steps have
a cell in common. -/
structure SpanWalk.Sound (w : SpanWalk) : Prop where
  advances : ∀ i, i < w.stop → i < w.next i ∧ w.next i ≤ w.stop
  formed : ∀ rowsOf c i, c.order = some (w.record i) → i < w.stop →
    formSpan rowsOf c = some (w.span i, { c with order := some (w.record (w.next i)) })
  noUnit : ∀ s ch i, (s.chan ch).order = some (w.record i) → unitReady s ch = false
  noDroppedRow : ∀ c i, c.order = some (w.record i) → droppedRowReady c = false
  goesOn : ∀ c i, c.order = some (w.record i) → i < w.stop → spanRendered c = c
  full : ∀ i, (w.span i).on = (w.span i).box ∧ (w.span i).wipe = false
  holds : ∀ i, i < w.stop → ∀ (y : Coord) (g : Group) (k : Nat), k < 16 →
    (y = (w.span i).row ∧ g = (w.span i).group ∧ (w.span i).box.getLsbD k = true ↔
      ∃ m, i ≤ m ∧ m < w.next i ∧ w.cell m (16 * g.val + k) y)
  once : ∀ l m x y, l < w.stop → m < w.stop → w.cell l x y → w.cell m x y → l = m

theorem spanRendered_response (c : Chan) : (spanRendered c).response = c.response := by
  unfold spanRendered
  split <;> (try split) <;> (try split) <;> rfl

namespace SpanWalk.Sound

variable {w : SpanWalk} (sound : w.Sound)
include sound

/-- A channel that draws alone is granted the span it has come to, and the span renders at its grant. -/
theorem grant {ch : Channel} {s : State} (alone : Alone ch s) (i : Nat) (order : (s.chan ch).order = some (w.record i))
    (more : i < w.stop) :
    dueStep s = some .grant ∧
      runInternal .grant s =
        renderSpan { channel := ch, span := w.span i }
          (spanGranted ch { s.chan ch with order := some (w.record (w.next i)) } s) := by
  have noUnit := sound.noUnit s ch i order
  have ready : spanReady s ch = some (w.span i, { s.chan ch with order := some (w.record (w.next i)) }) :=
    sound.formed _ _ i order more
  have presented : presents s ch = true := by simp [presents, alone.accept, ready]
  have due : dueStep s = some .grant := by
    have decode : decodeDue ch s = false := by simp [decodeDue, reached, order]
    have row : droppedRowDue ch s = false := by simp [droppedRowDue, sound.noDroppedRow _ i order]
    rw [alone.dueStep_eq, decode, row, presented]
    rfl
  refine ⟨due, ?_⟩
  have chosen : grantee s = some ch := by rw [alone.grantee_eq, if_pos presented]
  have same := sameDrawing_spanGranted ch { s.chan ch with order := some (w.record (w.next i)) } s rfl
  have renders : renderCondition s { channel := ch, span := w.span i } = true := by
    simp [renderCondition, needsRoom, alone.stale]
  rw [runInternal, grantStep, chosen]
  dsimp only
  rw [grantTo_of_span ch s _ _ noUnit ready, placeSpan, SameDrawing.renderCondition same, if_pos renders]

/-- What that grant leaves: the channel still alone, its order moved on, and the cells of the span's steps drawn. -/
theorem granted {ch : Channel} {s : State} (alone : Alone ch s) (i : Nat) (more : i < w.stop) :
    let c : Chan := { s.chan ch with order := some (w.record (w.next i)) }
    let t := renderSpan { channel := ch, span := w.span i } (spanGranted ch c s)
    Alone ch t ∧ t.chan ch = spanRendered c ∧ t.supervision = s.supervision ∧
      CellsDrawn ch (fun x y => ∃ m, i ≤ m ∧ m < w.next i ∧ w.cell m x y) s t := by
  intro c t
  have same := sameDrawing_spanGranted ch c s rfl
  have wf : TableWf 0 16384 (spanGranted ch c s).engine.shadow := same.shadow ▸ alone.shadow
  obtain ⟨own, other⟩ := renderSpan_chan { channel := ch, span := w.span i } (spanGranted ch c s)
  have order : t.chan ch = spanRendered c := own.trans (congrArg spanRendered (State.withChan_chan _ ch c))
  obtain ⟨full, noWipe⟩ := sound.full i
  refine ⟨?_, order, by simp [t, spanGranted], ?_⟩
  · refine alone.of_same (renderSpan_wf _ _ wf) (by simp [t, spanGranted]) (by simp [t, renderSpan_engine]) ?_ ?_ ?_
    · rw [other _ (otherChannel_ne ch)]
      exact (State.withChan_chan_ne _ _ (otherChannel_ne ch)).trans (State.withEngine_chan _ _ _)
    · rw [order, spanRendered_response]
      exact alone.accept
    · have event : t.event = s.event := by simp [t, spanGranted]
      rw [opening, event]
      exact alone.shut
  · exact .of_span (SameDrawing.spanDrawn same (renderSpan_spanDrawn _ _ wf)).1 full noWipe (sound.holds i more)

/-- A channel that draws alone takes its order through all its spans from step `i` on. -/
theorem runs (n : Nat) : ∀ (ch : Channel) (s : State) (i : Nat), Alone ch s → (s.chan ch).order = some (w.record i) →
    i < w.stop → w.stop ≤ i + n →
    ∃ t m, m ≤ n ∧ Runs m s t ∧ Alone ch t ∧
      t.chan ch = spanRendered { s.chan ch with order := some (w.record w.stop) } ∧
      CellsDrawn ch (w.cellsFrom i) s t := by
  induction n with
  | zero => exact fun ch s i _ _ more done => absurd more (by omega)
  | succ n ih =>
    intro ch s i alone order more enough
    obtain ⟨due, step⟩ := sound.grant alone i order more
    obtain ⟨alone', chan, area, drawn⟩ := sound.granted alone i more
    rw [← step] at alone' chan area drawn
    obtain ⟨ahead, within⟩ := sound.advances i more
    rcases Nat.eq_or_lt_of_le within with last | more'
    · rw [last] at chan drawn
      exact ⟨_, 1, by omega, .one due, alone', chan, drawn⟩
    · have moved : (runInternal .grant s).chan ch = { s.chan ch with order := some (w.record (w.next i)) } := by
        rw [chan, sound.goesOn _ _ rfl more']
      obtain ⟨t, m, few, runs, aloneT, chanT, drawnT⟩ :=
        ih ch _ (w.next i) alone' (by rw [moved]) more' (by omega)
      rw [moved] at chanT
      have brush : SameBrush ch s (runInternal .grant s) := ⟨by rw [area], by rw [moved], by rw [moved]⟩
      refine ⟨t, 1 + m, by omega, (Runs.one due).trans runs, aloneT, chanT, ?_⟩
      refine (drawn.trans brush drawnT ?_).congr fun x y => ⟨?_, ?_⟩
      · rintro x y ⟨l, -, below, here⟩ ⟨m, above, inside, there⟩
        have := sound.once l m x y (by omega) inside here there
        omega
      · rintro (⟨m, from', below, here⟩ | ⟨m, from', below, here⟩)
        · exact ⟨m, from', by omega, here⟩
        · exact ⟨m, by omega, below, here⟩
      · rintro ⟨m, from', below, here⟩
        rcases Nat.lt_or_ge m (w.next i) with early | late
        · exact .inl ⟨m, from', early, here⟩
        · exact .inr ⟨m, late, below, here⟩

end SpanWalk.Sound

end Sys2Proof.Machine
end

section
/-! PROOFS. A LINE and a BLOCK drawn whole: their walks, and the event of an order reached alone on a panel that is not LIVE. -/

namespace Sys2Proof.Machine

/-! ### The event of an order that draws alone -/

/-- An event whose steps leave a channel alone and without a word is over behind them. -/
theorem finish_of_runs {ch : Channel} {s t : State} {n : Nat} (runs : Runs n (goOn s) t) (few : n ≤ Config.eventFuel)
    (alone : Alone ch t) (order : (t.chan ch).order = none) (fifo : (t.chan ch).fifo = []) :
    AtRest (finish s) ∧ (finish s).chan ch = t.chan ch ∧ (finish s).engine.shadow = t.engine.shadow := by
  have rest := alone.dueStep_none order fifo
  have closed : finish s = endEvent t := by
    have notResumed : resumeOpen t = false := by rw [resumeOpen, alone.shut]; rfl
    rw [finish, runs.settle_eq few rest]
    simp [closeEvent, rest, notResumed]
  have chan : (endEvent t).chan ch = t.chan ch := by cases ch <;> simp
  rw [closed]
  exact ⟨⟨endEvent_event t, alone.endEvent.dueStep_none (by rw [chan, order]) (by rw [chan, fifo])⟩, chan, by simp⟩

/-- The hypotheses under which an order is reached alone: a panel that is not LIVE, a FREE engine, nothing on the other channel,
and no word behind the order's own. -/
structure ReachedAlone (ch : Channel) (s : State) (kind : OrderKind) (head : Word) (args : List Word) : Prop where
  memory : MemoryWf s
  legal : PanelLegal s
  notLive : s.sustain.panelState ≠ .live
  free : s.engine.held = none
  otherOrder : (s.chan (otherChannel ch)).order = none
  otherFifo : (s.chan (otherChannel ch)).fifo = []
  reaches : ReachesOrder ch s kind head args []

namespace ReachedAlone

variable {ch : Channel} {s : State} {kind : OrderKind} {head : Word} {args : List Word}

/-- The first step of the event is the order's start. -/
theorem start (h : ReachedAlone ch s kind head args) (c : Chan)
    (starts : decoded ch s.supervision.area kind head args (s.chan ch) = c) (accept : c.response = .accept) :
    Runs 1 (goOn s) ((goOn s).withChan ch c) ∧ Alone ch ((goOn s).withChan ch c) := by
  have alone : Alone ch (goOn s) :=
    alone_goOn ch s h.memory h.legal h.notLive h.free h.otherOrder h.otherFifo h.reaches.accept
  have chan : (goOn s).chan ch = s.chan ch := State.withEvent_chan s _ ch
  have reaches : ReachesOrder ch (goOn s) kind head args [] := by
    unfold ReachesOrder
    rw [chan]
    exact h.reaches
  have due : dueStep (goOn s) = some (.decode ch) := by
    have decode : decodeDue ch (goOn s) = true := by simp [decodeDue, reaches.reached]
    rw [alone.dueStep_eq, if_pos decode]
  have step : runInternal (.decode ch) (goOn s) = (goOn s).withChan ch c := by
    rw [runInternal, reaches.decodeStep, chan, ← starts]
    rfl
  exact ⟨step ▸ .one due, alone.withChan _ accept⟩

/-- An order that completes at its start leaves the shadow image as it was. -/
theorem completes (h : ReachedAlone ch s kind head args) (c : Chan)
    (starts : decoded ch s.supervision.area kind head args (s.chan ch) = c) (accept : c.response = .accept)
    (order : c.order = none) (fifo : c.fifo = []) :
    AtRest (finish s) ∧ (finish s).chan ch = c ∧ (finish s).engine.shadow = s.engine.shadow := by
  obtain ⟨runs, alone⟩ := h.start c starts accept
  have chan : ((goOn s).withChan ch c).chan ch = c := State.withChan_chan _ _ _
  obtain ⟨rest, final, shadow⟩ := finish_of_runs runs (by decide) alone (by rw [chan, order]) (by rw [chan, fifo])
  exact ⟨rest, final.trans chan, shadow.trans (congrArg Engine.shadow (State.withChan_engine _ _ _))⟩

/-- An order that starts a walk is drawn whole at one event, and completes as its last render leaves it. -/
theorem drawn (h : ReachedAlone ch s kind head args) {w : SpanWalk} (sound : w.Sound) (i : Nat) (more : i < w.stop)
    (few : w.stop < Config.eventFuel) (c : Chan)
    (starts : decoded ch s.supervision.area kind head args (s.chan ch) = { c with order := some (w.record i) })
    (accept : c.response = .accept) (context : c.context = (s.chan ch).context) (done : Chan)
    (last : spanRendered { c with order := some (w.record w.stop) } = done) (order : done.order = none)
    (fifo : done.fifo = []) :
    AtRest (finish s) ∧ (finish s).chan ch = done ∧ CellsDrawn ch (w.cellsFrom i) s (finish s) := by
  obtain ⟨begins, alone⟩ := h.start _ starts accept
  have chan := State.withChan_chan (goOn s) ch { c with order := some (w.record i) }
  obtain ⟨t, m, atMost, runs, aloneT, chanT, drawnT⟩ := sound.runs w.stop ch _ i alone (by rw [chan]) more (by omega)
  rw [chan] at chanT
  replace chanT := chanT.trans last
  obtain ⟨rest, final, shadow⟩ :=
    finish_of_runs (begins.trans runs) (by omega) aloneT (by rw [chanT, order]) (by rw [chanT, fifo])
  have brush : SameBrush ch s ((goOn s).withChan ch { c with order := some (w.record i) }) :=
    ⟨congrArg Supervision.area (State.withChan_supervision _ _ _), by rw [chan, ← context], by rw [chan, ← context]⟩
  exact ⟨rest, final.trans chanT, drawnT.of_same (congrArg Engine.shadow (State.withChan_engine _ _ _)) brush shadow⟩

end ReachedAlone

/-! ### LINE -/

/-- The walk of a LINE: its cursor is a step, and each step places one cell (R21, R24). -/
def lineWalk (p q : Point) : SpanWalk where
  record i := .line p q i
  stop := lineSteps p q + 1
  span i := (lineSpan p q i).1
  next i := (lineSpan p q i).2
  cell m x y := lineCell p q m = (x, y)

theorem lineWalk_holds (p q : Point) (i : Nat) (hi : i ≤ lineSteps p q) (y : Coord) (g : Group) (k : Nat) (hk : k < 16) :
    y = (lineSpan p q i).1.row ∧ g = (lineSpan p q i).1.group ∧ (lineSpan p q i).1.box.getLsbD k = true ↔
      ∃ m, i ≤ m ∧ m < (lineSpan p q i).2 ∧ lineCell p q m = (16 * g.val + k, y.val) := by
  have run := lineSpan_isLineRun p q i
  have row := lineSpan_row p q i hi
  have group := lineSpan_group p q i hi
  constructor
  · rintro ⟨rfl, rfl, lit⟩
    rcases (run.cells k hk).mp lit with unlit | ⟨m, from', below, here⟩
    · simp at unlit
    · obtain ⟨rowM, groupM⟩ := run.inside m from' below
      exact ⟨m, from', below, Prod.ext (by dsimp only; omega) (by dsimp only; omega)⟩
  · rintro ⟨m, from', below, here⟩
    obtain ⟨rowM, groupM⟩ := run.inside m from' below
    rw [here] at rowM groupM
    dsimp only at rowM groupM
    refine ⟨Fin.ext (by omega), Fin.ext (by omega), (run.cells k hk).mpr (.inr ⟨m, from', below, ?_⟩)⟩
    rw [here]
    dsimp only
    omega

theorem lineWalk_sound (p q : Point) : (lineWalk p q).Sound where
  advances i more := ⟨lt_lineSpan p q i (Nat.le_of_lt_succ more), (lineSpan_isLineRun p q i).le_steps (Nat.le_of_lt more)⟩
  formed rowsOf c i order more := by
    simp only [formSpan, order, lineWalk]
    exact if_pos (Nat.le_of_lt_succ more)
  noUnit s ch i order := by simp only [unitReady, order, lineWalk]
  noDroppedRow c i order := by simp only [droppedRowReady, order, lineWalk]
  goesOn c i order more := by
    simp only [spanRendered, order, lineWalk]
    exact if_pos (Nat.le_of_lt_succ more)
  full i := ⟨rfl, rfl⟩
  holds i more y g k hk := lineWalk_holds p q i (Nat.le_of_lt_succ more) y g k hk
  once l m x y hl hm here there :=
    lineCell_inj p q m l (Nat.le_of_lt_succ hm) (Nat.le_of_lt_succ hl) (Eq.trans here (Eq.symm there))

/-- A LINE has at most 512 steps. -/
theorem lineSteps_lt (p q : Point) : lineSteps p q < 512 := by
  have px := p.x.isLt
  have py := p.y.isLt
  have qx := q.x.isLt
  have qy := q.y.isLt
  unfold lineSteps distance
  omega

/-- A channel without an order in progress is one whose order is dropped. -/
theorem Chan.drop_order (c : Chan) (idle : c.order = none) (fifo : List Word) (context : Context) :
    ({ c with fifo := fifo, order := none, context := context } : Chan) = { c with fifo := fifo, context := context } := by
  rw [← idle]

/-- The render of a LINE's last span completes it (R17, R23). -/
theorem spanRendered_line_last (c : Chan) (p q : Point) :
    spanRendered { c with order := some (.line p q (lineSteps p q + 1)) } =
      { c with order := none, context := { c.context with position := q, penFresh := false } } :=
  if_neg (Nat.not_succ_le_self _)

/-- Settles O13: a LINE that draws a step is a walk, and one that does not completes at its start. -/
theorem lineIsDrawnWhole : Obligations.LineIsDrawnWhole := by
  intro s ch head x y memory legal notLive free otherOrder otherFifo reaches old p q first t
  have h : ReachedAlone ch s .line head [x, y] := ⟨memory, legal, notLive, free, otherOrder, otherFifo, reaches⟩
  have words : (s.chan ch).fifo.drop 3 = [] := reaches.drop_fifo
  have idle := reaches.idle
  by_cases draws : drawsLine old q
  · have inside : first ≤ lineSteps p q := draws
    obtain ⟨rest, final, drawn⟩ := h.drawn (lineWalk_sound p q) first (Nat.lt_succ_of_le inside)
      (Nat.lt_of_lt_of_le (Nat.succ_lt_succ (lineSteps_lt p q)) (by decide)) { s.chan ch with fifo := [] }
      (by rw [decoded, reachLine_of_drawsLine [x, y] (s.chan ch) draws, words]; rfl) reaches.accept rfl _
      (spanRendered_line_last _ p q) rfl rfl
    refine ⟨rest, final.trans (Chan.drop_order _ idle _ _), fun row g k hk => ?_⟩
    obtain ⟨combined, kept⟩ := drawn row g k hk
    refine ⟨fun ⟨i, from', upTo, here⟩ may => combined ⟨i, from', Nat.lt_succ_of_le upTo, here⟩ may,
      fun out => kept ?_⟩
    exact out.imp (fun never ⟨m, from', below, here⟩ => never m from' (Nat.le_of_lt_succ below) here) id
  · obtain ⟨rest, final, shadow⟩ := h.completes
      { s.chan ch with fifo := [], context := { old with position := q, penFresh := false } }
      (by rw [decoded, reachLine_of_not_drawsLine [x, y] (s.chan ch) draws, words]; rfl) reaches.accept idle rfl
    refine ⟨rest, final, fun row g k _ => ⟨fun ⟨i, from', upTo, _⟩ => absurd (Nat.le_trans from' upTo) draws, fun _ => ?_⟩⟩
    rw [shadowCell, shadowAt, shadow, shadowCell, shadowAt]

/-! ### BLOCK -/

/-- The walk of a BLOCK over its rectangle: a step is a span (R25). -/
def blockWalk (p q : Point) : SpanWalk where
  record n := .block p q n
  stop := rectSpans (blockRect p q)
  span n := rectSpan (blockRect p q) false n
  next n := n + 1
  cell m x y := inRect (blockRect p q) x y = true ∧ m = rectIndex (blockRect p q) x y

/-- The rectangle of two corners is none that is empty (section 0.6). -/
theorem rectOf_ordered (x1 y1 x2 y2 : Coord) :
    (rectOf x1 y1 x2 y2).xLo ≤ (rectOf x1 y1 x2 y2).xHi ∧ (rectOf x1 y1 x2 y2).yLo ≤ (rectOf x1 y1 x2 y2).yHi := by
  unfold rectOf
  dsimp only
  constructor
  · split
    · assumption
    · exact Fin.le_of_lt (Fin.not_le.mp ‹_›)
  · split
    · assumption
    · exact Fin.le_of_lt (Fin.not_le.mp ‹_›)

theorem blockWalk_sound (p q : Point) : (blockWalk p q).Sound where
  advances n more := ⟨Nat.lt_succ_self n, more⟩
  formed rowsOf c n order more := by
    simp only [formSpan, order, blockWalk]
    exact if_pos more
  noUnit s ch n order := by simp only [unitReady, order, blockWalk]
  noDroppedRow c n order := by simp only [droppedRowReady, order, blockWalk]
  goesOn c n order more := by
    simp only [spanRendered, order, blockWalk]
    exact if_pos more
  full n := ⟨rfl, rfl⟩
  holds n more y g k hk := by
    obtain ⟨wide, tall⟩ := rectOf_ordered p.x p.y q.x q.y
    refine (rectSpan_holds_iff (blockRect p q) false wide tall n more y g k hk).trans ⟨fun here => ?_, ?_⟩
    · exact ⟨n, Nat.le_refl n, Nat.lt_succ_self n, here⟩
    · rintro ⟨m, from', below, here⟩
      obtain rfl : m = n := Nat.le_antisymm (Nat.le_of_lt_succ below) from'
      exact here
  once l m x y _ _ here there := here.2.trans there.2.symm

/-- A rectangle has at most 512 rows of 32 spans. -/
theorem rectSpans_le (r : Rect) : rectSpans r ≤ 512 * 32 := by
  have high := r.yHi.isLt
  have right := r.xHi.isLt
  refine Nat.mul_le_mul (by omega) ?_
  unfold groupsAcross
  omega

/-- The render of a BLOCK's last span completes it, its context kept (R25). -/
theorem spanRendered_block_last (c : Chan) (p q : Point) :
    spanRendered { c with order := some (.block p q (rectSpans (blockRect p q))) } = { c with order := none } :=
  if_neg (Nat.lt_irrefl _)

/-- Settles O15: a BLOCK is the walk over its rectangle. -/
theorem blockIsDrawnWhole : Obligations.BlockIsDrawnWhole := by
  intro s ch head x y memory legal notLive free otherOrder otherFifo reaches old r t
  have h : ReachedAlone ch s .block head [x, y] := ⟨memory, legal, notLive, free, otherOrder, otherFifo, reaches⟩
  have words : (s.chan ch).fifo.drop 3 = [] := reaches.drop_fifo
  have idle := reaches.idle
  let w := blockWalk old.position (pointOf [x, y])
  have spans : 0 < w.stop := Nat.mul_pos (Nat.succ_pos _) (groupsAcross_pos _ _)
  obtain ⟨rest, final, drawn⟩ := h.drawn (w := w) (blockWalk_sound _ _) 0 spans
    (Nat.lt_of_le_of_lt (rectSpans_le _) (by decide)) { s.chan ch with fifo := [] }
    (by simp only [decoded, reachBlock, startRecord, popOrder, words]; rfl) reaches.accept rfl _
    (spanRendered_block_last _ _ _) rfl rfl
  refine ⟨rest, final.trans (Chan.drop_order _ idle _ _), fun row g k hk => ?_⟩
  obtain ⟨combined, kept⟩ := drawn row g k hk
  have cells : w.cellsFrom 0 (16 * g.val + k) row ↔ inRect r (16 * g.val + k) row = true := by
    refine ⟨fun ⟨_, _, _, here, _⟩ => here, fun here => ?_⟩
    exact ⟨_, Nat.zero_le _, (rectIndex_spec r _ _ here).1, here, rfl⟩
  rw [cells] at combined kept
  split
  · rename_i here
    obtain ⟨inside, may⟩ := (Bool.and_eq_true _ _).mp here
    exact combined inside may
  · rename_i out
    rw [Bool.and_eq_true, Classical.not_and_iff_not_or_not, Bool.not_eq_true (mayDraw _ _ _ _)] at out
    exact kept out

end Sys2Proof.Machine
end

section
/-! PROOFS. The glyph memory: what a slot's rows read after a load, and the grant of a GLYPH. -/

namespace Sys2Proof.Machine

/-! ### The rows of a slot -/

/-- Row 2j of the rows that words carry is the high byte of word j, and row 2j + 1 its low byte (R36). -/
theorem rowsOfWords_getElem? (words : List Word) (j : Nat) :
    (rowsOfWords words)[2 * j]? = words[j]?.map highByte ∧ (rowsOfWords words)[2 * j + 1]? = words[j]?.map lowByte := by
  induction words generalizing j with
  | nil => exact ⟨rfl, rfl⟩
  | cons w rest ih =>
    cases j with
    | zero => exact ⟨rfl, rfl⟩
    | succ j => exact ih j

/-- Two glyph rows at one address are the same row of the same slot (R34). -/
theorem glyphAddress_inj {m n : Byte} {q r : Nat} (hq : q < 16) (hr : r < 16)
    (e : glyphAddress m q = glyphAddress n r) : m = n ∧ q = r := by
  simp only [glyphAddress] at e
  exact ⟨BitVec.eq_of_toNat_eq (by omega), by omega⟩

/-- A load leaves every address alone that is none of its rows' (R34). -/
theorem sparseGet_loadRows_other (slot : Byte) (a : Nat) (rows : List Byte) :
    ∀ (r : Nat) (glyphs : List Host.Cell), SparseWf 0 glyphs →
      (∀ q, q < rows.length → a ≠ glyphAddress slot (r + q)) →
      sparseGet 0 (loadRows glyphs slot r rows) a = sparseGet 0 glyphs a := by
  induction rows with
  | nil => exact fun _ _ _ _ => rfl
  | cons row rest ih =>
    intro r glyphs wf apart
    calc sparseGet 0 (loadRows glyphs slot r (row :: rest)) a
        = sparseGet 0 (sparseSet 0 glyphs (glyphAddress slot r) row) a :=
          ih (r + 1) _ (sparseSet_wf 0 _ _ _ wf) fun q hq => by
            have step : r + 1 + q = r + (q + 1) := by omega
            exact step ▸ apart (q + 1) (Nat.succ_lt_succ hq)
      _ = sparseGet 0 glyphs a := sparseGet_set_other 0 _ _ wf (apart 0 (Nat.succ_pos _))

/-- A load puts each of its rows at its address (R34, R37). -/
theorem sparseGet_loadRows_same (slot : Byte) (rows : List Byte) :
    ∀ (r q : Nat) (glyphs : List Host.Cell), SparseWf 0 glyphs → (h : q < rows.length) →
      sparseGet 0 (loadRows glyphs slot r rows) (glyphAddress slot (r + q)) = rows[q] := by
  induction rows with
  | nil => exact fun _ _ _ _ h => absurd h (Nat.not_lt_zero _)
  | cons row rest ih =>
    intro r q glyphs wf h
    have wf' := sparseSet_wf 0 glyphs (glyphAddress slot r) row wf
    cases q with
    | zero =>
      have apart : ∀ q, q < rest.length → glyphAddress slot r ≠ glyphAddress slot (r + 1 + q) := by
        intro q _
        simp only [glyphAddress]
        omega
      calc sparseGet 0 (loadRows glyphs slot r (row :: rest)) (glyphAddress slot r)
          = sparseGet 0 (sparseSet 0 glyphs (glyphAddress slot r) row) (glyphAddress slot r) :=
            sparseGet_loadRows_other slot _ rest (r + 1) _ wf' apart
        _ = row := sparseGet_set_same 0 _ _ _ wf
    | succ q =>
      have step : r + (q + 1) = r + 1 + q := by omega
      rw [step]
      exact ih (r + 1) q _ wf' (Nat.lt_of_succ_lt_succ h)

/-- The rows of a slot that is loaded whole are those of the load (R36, R38). -/
theorem glyphRows_loadRows_same (glyphs : List Host.Cell) (slot : Byte) (rows : List Byte) (wf : SparseWf 0 glyphs)
    (whole : rows.length = 16) : glyphRows (loadRows glyphs slot 0 rows) slot = rows := by
  refine List.ext_getElem (by simp [glyphRows, whole]) fun q _ inside => ?_
  have read := sparseGet_loadRows_same slot rows 0 q glyphs wf inside
  rw [Nat.zero_add] at read
  simpa [glyphRows] using read

/-- A load of at most 16 rows leaves the rows of every other slot alone (R34). -/
theorem glyphRows_loadRows_other (glyphs : List Host.Cell) (slot n : Byte) (rows : List Byte) (wf : SparseWf 0 glyphs)
    (fits : rows.length ≤ 16) (other : n ≠ slot) : glyphRows (loadRows glyphs slot 0 rows) n = glyphRows glyphs n := by
  refine List.map_congr_left fun r hr => sparseGet_loadRows_other slot _ rows 0 glyphs wf fun q hq e => other ?_
  exact (glyphAddress_inj (List.mem_range.mp hr) (by omega) e).1

/-! ### The grant of a GLYPH -/

/-- A GLYPH that is granted has its eight data words in the FIFO (R37). -/
theorem glyph_words_of_granted (ch : Channel) (s : State) (slot : Byte) (granted : Granted ch s (.glyph slot)) :
    8 ≤ (s.chan ch).fifo.length := by
  have offered := presents_of_grantee s ch granted.1
  simpa [presents, unitReady, spanReady, formSpan, granted.2] using ((Bool.and_eq_true _ _).mp offered).2

/-- GLYPH as a command, at its grant (R37). -/
theorem exec_glyph_granted (ch : Channel) (s : State) (slot : Byte) (granted : Granted ch s (.glyph slot)) :
    exec (.glyph ch) s = .next (closeEvent (glyphUnit ch slot (grantBegun ch s))) := by
  have order : ((beginEvent s).chan ch).order = some (.glyph slot) := by rw [beginEvent_chan, granted.2]
  have ready : unitReady (beginEvent s) ch = true := by
    rw [unitReady_beginEvent]
    simpa only [unitReady, granted.2, decide_eq_true_iff] using glyph_words_of_granted ch s slot granted
  have grant : grantTo ch (beginEvent s) = glyphUnit ch slot (grantBegun ch s) := by
    rw [grantTo_of_unit ch _ ready]
    simp only [carryUnit, State.withEngine_chan, order]
    rfl
  rw [← grant]
  exact exec_orderCommand ch s (.glyph slot) granted

@[simp] theorem grantBegun_engine (ch : Channel) (s : State) :
    (grantBegun ch s).engine = { s.engine with arbiter := ch } := by
  simp [grantBegun, beginEvent_eq]

/-- The state after a GLYPH unit that is not refused (R38). -/
def glyphLoaded (ch : Channel) (slot : Byte) (s : State) : State :=
  (s.withEngine
    { s.engine with glyphs := loadRows s.engine.glyphs slot 0 (rowsOfWords ((s.chan ch).fifo.take 8)) }).withChan ch
      { s.chan ch with fifo := (s.chan ch).fifo.drop 8, order := none }

/-- A load by the line channel, or into a set that is not locked, is carried out (R38). -/
theorem glyphUnit_of_free (ch : Channel) (slot : Byte) (s : State)
    (free : ch = .lineCh ∨ s.engine.lockSet.getLsbD (slotSet slot) = false) :
    glyphUnit ch slot s = glyphLoaded ch slot s := by
  refine if_neg ?_
  rintro ⟨rfl, locked⟩
  rcases free with line | free
  · cases line
  · rw [locked] at free
    cases free

/-- A local load into a locked set is refused (R38). -/
theorem glyphUnit_of_locked (slot : Byte) (s : State) (locked : s.engine.lockSet.getLsbD (slotSet slot) = true) :
    glyphUnit .localCh slot s = haltChannel .localCh .locked s :=
  if_pos ⟨rfl, locked⟩

theorem glyphLoaded_onlyChanges (ch : Channel) (slot : Byte) (s : State) :
    OnlyChanges [.glyphs, chanPart ch] s (glyphLoaded ch slot s) := by
  intro p hp
  cases ch <;> cases p <;> simp [SamePart, chanPart, glyphLoaded] at hp ⊢

/-- A halt of the local channel changes that channel, and raises HALT (R54). -/
theorem haltChannel_local_onlyChanges (cause : HaltCause) (s : State) :
    OnlyChanges [.localChan, .flags] s (haltChannel .localCh cause s) := by
  intro p hp
  cases p <;> simp [SamePart, haltChannel] at hp ⊢

theorem haltChannel_local_flags (cause : HaltCause) (s : State) : FlagsAfter [.halt] s (haltChannel .localCh cause s) := by
  intro f
  have raised : flagSet f (haltChannel .localCh cause s) = (flagSet f s || decide (f = .halt)) :=
    flagSet_raiseFlag .halt f _
  rw [raised]
  exact ⟨fun _ => by simp, fun set => by simp [set]⟩

/-- What a GLYPH that is carried out at its grant leaves (R38). -/
theorem glyphLoaded_closed (ch : Channel) (slot : Byte) (s : State) (wf : MemoryWf s)
    (words : 8 ≤ (s.chan ch).fifo.length) :
    let t := closeEvent (glyphLoaded ch slot (grantBegun ch s))
    glyphRows t.engine.glyphs slot = rowsOfWords ((s.chan ch).fifo.take 8) ∧
      (∀ n, n ≠ slot → glyphRows t.engine.glyphs n = glyphRows s.engine.glyphs n) ∧
      t.chan ch = { s.chan ch with fifo := (s.chan ch).fifo.drop 8, order := none } ∧
      t.engine.held = s.engine.held ∧ OnlyChanges [.glyphs, .arbiter, chanPart ch, .flags] s t ∧ FlagsAfter [] s t := by
  obtain ⟨-, ⟨glyphs, -⟩, -⟩ := wf
  intro t
  have loaded : t.engine.glyphs = loadRows s.engine.glyphs slot 0 (rowsOfWords ((s.chan ch).fifo.take 8)) := by
    simp [t, glyphLoaded]
  have whole : (rowsOfWords ((s.chan ch).fifo.take 8)).length = 16 := by
    rw [rowsOfWords_length, List.length_take]
    omega
  refine ⟨loaded ▸ glyphRows_loadRows_same _ slot _ glyphs whole,
    fun n other => loaded ▸ glyphRows_loadRows_other _ slot n _ glyphs (Nat.le_of_eq whole) other, ?_,
    by simp [t, glyphLoaded], ?_, (FlagsAfter.of_flags (by simp [glyphLoaded])).closed⟩
  · rw [closeEvent_chan, glyphLoaded, State.withChan_chan, grantBegun_chan]
  · exact (((onlyChanges_grantBegun ch s).trans (glyphLoaded_onlyChanges ch slot _)).trans
      (onlyChanges_closeEvent _)).mono (by cases ch <;> decide)

/-- Settles O28: the grant carries out the unit, which loads the slot or halts the local channel. -/
theorem glyphLoadsItsSlot : Obligations.GlyphLoadsItsSlot := by
  intro s ch slot wf granted
  have free := held_of_grantee s ch granted.1
  have command := exec_glyph_granted ch s slot granted
  refine ⟨fun allowed => ?_, fun loc locked => ?_⟩
  · have allowed' : ch = .lineCh ∨ (grantBegun ch s).engine.lockSet.getLsbD (slotSet slot) = false := by
      rw [grantBegun_engine]
      exact allowed
    rw [glyphUnit_of_free ch slot _ allowed'] at command
    obtain ⟨rows, others, chan, held, changes, flags⟩ :=
      glyphLoaded_closed ch slot s wf (glyph_words_of_granted ch s slot granted)
    refine ⟨_, command, fun j hj => ?_, others, chan, held.trans free, changes, flags⟩
    obtain ⟨high, low⟩ := rowsOfWords_getElem? ((s.chan ch).fifo.take 8) j
    rw [List.getElem?_take_of_lt hj] at high low
    rw [rows]
    exact ⟨high, low⟩
  · subst loc
    have locked' : (grantBegun .localCh s).engine.lockSet.getLsbD (slotSet slot) = true := by
      rw [grantBegun_engine]
      exact locked
    rw [glyphUnit_of_locked slot _ locked'] at command
    refine ⟨_, command, by simp [haltChannel, haltedChan], by simp [free], ?_, ?_⟩
    · exact (((onlyChanges_grantBegun .localCh s).trans (haltChannel_local_onlyChanges .locked _)).trans
        (onlyChanges_closeEvent _)).mono (by decide)
    · have begun : ∀ f, flagSet f (grantBegun .localCh s) = flagSet f s := fun f => by simp [flagSet]
      refine FlagsAfter.closed fun f => ?_
      have halted := haltChannel_local_flags .locked (grantBegun .localCh s) f
      rwa [begun] at halted

end Sys2Proof.Machine
end

section
/-! PROOFS. Text lines: the pitch down of NEWLINE and of a wrap, and the context orders NEWLINE and MARGIN. -/

namespace Sys2Proof.Machine

/-- A pitch is less than the panel is high (R41). -/
theorem pitchOf_le (size : Size) : pitchOf size ≤ 32 := by cases size <;> decide

/-- Down one pitch, as a number: 512 is added when the difference is negative (R44, R46). -/
theorem pitchDown_val (size : Size) (y : Coord) :
    ((pitchDown size y).val : Int) =
      if (y.val : Int) - pitchOf size < 0 then (y.val : Int) - pitchOf size + 512 else (y.val : Int) - pitchOf size := by
  have low := y.isLt
  have pitch := pitchOf_le size
  by_cases above : pitchOf size ≤ y.val
  · rw [pitchDown, if_pos above, if_neg (by omega)]
    simp only [coord]
    omega
  · rw [pitchDown, if_neg above, if_pos (by omega)]
    simp only [coord]
    omega

/-- Settles O22: both are carried out by the decoder alone. -/
theorem newlineAndMarginAreCarriedOut : Obligations.NewlineAndMarginAreCarriedOut := by
  intro s ch head rest old down
  refine ⟨fun reaches => ?_, fun reaches => ?_⟩
  · obtain ⟨order, changes, flags⟩ := startedState_closed ch .newline head [] s
    have words : (s.chan ch).fifo.drop 1 = rest := reaches.drop_fifo
    refine ⟨_, pitchDown old.size old.position.y, congrArg Host.Outcome.next reaches.contextCommand,
      pitchDown_val _ _, order.trans ?_, changes, flags⟩
    simp only [decoded, reachNewline, popOrder, words]
    rfl
  · obtain ⟨order, changes, flags⟩ := startedState_closed ch .margin head [] s
    have words : (s.chan ch).fifo.drop 1 = rest := reaches.drop_fifo
    refine ⟨_, congrArg Host.Outcome.next reaches.contextCommand, order.trans ?_, changes, flags⟩
    simp only [decoded, reachMargin, popOrder, words]
    rfl

end Sys2Proof.Machine
end

section
/-! PROOFS. The box of a character: its spans are those of a rectangle, and they show the glyph cell over each panel cell. -/

namespace Sys2Proof.Machine

/-- The rectangle of a character's box, cut at the panel's edges (R42). -/
def charBox (size : Size) (place : Point) : Rect :=
  { xLo := place.x, yLo := place.y, xHi := coord (charRight size place), yHi := coord (charTop size place) }

theorem charBox_xHi (size : Size) (place : Point) : (charBox size place).xHi.val = charRight size place :=
  Nat.mod_eq_of_lt (Nat.lt_succ_of_le (Nat.min_le_right _ _))

theorem charBox_yHi (size : Size) (place : Point) : (charBox size place).yHi.val = charTop size place :=
  Nat.mod_eq_of_lt (Nat.lt_succ_of_le (Nat.min_le_right _ _))

theorem advanceOf_pos (size : Size) : 0 < advanceOf size := by cases size <;> decide

theorem pitchOf_pos (size : Size) : 0 < pitchOf size := by cases size <;> decide

theorem charBox_wide (size : Size) (place : Point) : (charBox size place).xLo ≤ (charBox size place).xHi := by
  have edge := place.x.isLt
  have wide := advanceOf_pos size
  rw [Fin.le_def, charBox_xHi]
  exact Nat.le_min.mpr ⟨by simp only [charBox]; omega, Nat.le_of_lt_succ edge⟩

theorem charBox_tall (size : Size) (place : Point) : (charBox size place).yLo ≤ (charBox size place).yHi := by
  have edge := place.y.isLt
  have tall := pitchOf_pos size
  rw [Fin.le_def, charBox_yHi]
  exact Nat.le_min.mpr ⟨by simp only [charBox]; omega, Nat.le_of_lt_succ edge⟩

/-- A cell lies in a character's box when it lies within the advance and the pitch from its place, on the panel (R42). -/
theorem inRect_charBox (size : Size) (place : Point) (x y : Nat) :
    inRect (charBox size place) x y = true ↔
      (place.x.val ≤ x ∧ x < place.x.val + advanceOf size ∧ x ≤ 511) ∧
        place.y.val ≤ y ∧ y < place.y.val + pitchOf size ∧ y ≤ 511 := by
  have wide := advanceOf_pos size
  have tall := pitchOf_pos size
  simp only [inRect, charBox_xHi, charBox_yHi, charRight, charTop, Nat.le_min, Bool.and_eq_true, decide_eq_true_iff]
  simp only [charBox]
  omega

/-- The spans of a character are those of its box (R42). -/
theorem charSpans_eq (size : Size) (place : Point) : charSpans size place = rectSpans (charBox size place) := by
  rw [rectSpans, charBox_xHi, charBox_yHi]
  rfl

theorem charSpan_eq_rectSpan (size : Size) (place : Point) (rows : List Byte) (n : Nat) :
    (charSpan size place rows n).row = (rectSpan (charBox size place) false n).row ∧
      (charSpan size place rows n).group = (rectSpan (charBox size place) false n).group ∧
      (charSpan size place rows n).box = (rectSpan (charBox size place) false n).box := by
  simp only [rectSpan, charBox_xHi, charBox_yHi]
  exact ⟨rfl, rfl, rfl⟩

/-- A cell lies in the box of a character's span exactly when it is a cell of the character's box in the span's row-group; the
cell's place tells the span. -/
theorem charSpan_holds_iff (size : Size) (place : Point) (rows : List Byte) (n : Nat) (hn : n < charSpans size place)
    (y : Coord) (g : Group) (k : Nat) (hk : k < 16) :
    (y = (charSpan size place rows n).row ∧ g = (charSpan size place rows n).group ∧
        (charSpan size place rows n).box.getLsbD k = true) ↔
      inRect (charBox size place) (16 * g.val + k) y = true ∧ n = rectIndex (charBox size place) (16 * g.val + k) y := by
  obtain ⟨row, group, box⟩ := charSpan_eq_rectSpan size place rows n
  rw [row, group, box]
  exact rectSpan_holds_iff (charBox size place) false (charBox_wide size place) (charBox_tall size place) n
    (charSpans_eq size place ▸ hn) y g k hk

/-- The on-set of a character's span shows the glyph's cells (R36, R42). -/
theorem charSpan_on_getLsbD (size : Size) (place : Point) (rows : List Byte) (n k : Nat) (hk : k < 16) :
    let p := charSpan size place rows n
    p.on.getLsbD k = (p.box.getLsbD k && glyphLit size place rows (16 * p.group.val + k) p.row.val) := by
  intro p
  obtain ⟨row, group, -⟩ := charSpan_eq_rectSpan size place rows n
  have y : p.row.val = charTop size place - n / groupsAcross place.x (charRight size place) := by
    rw [row, rectSpan_row, charBox_xHi, charBox_yHi]
    rfl
  have g : p.group.val = place.x.val / 16 + n % groupsAcross place.x (charRight size place) := by
    rw [group, rectSpan_group _ _ _ (charBox_wide size place), charBox_xHi]
    rfl
  rw [y, g]
  exact cellsOf_getLsbD _ k hk

/-- The panel cell (a, b) of glyph cell (r, c) shows that glyph cell (R36, R42). -/
theorem glyphLit_of_cell (size : Size) (place : Point) (rows : List Byte) (r c a b : Nat) (hr : r < 16)
    (ha : a < scaleOf size) (hb : b < scaleOf size) :
    glyphLit size place rows (place.x.val + scaleOf size * c + a)
        (place.y.val + pitchOf size - 1 - (scaleOf size * r + b)) = (rows.getD r 0).getLsbD (7 - c) := by
  have row : (place.y.val + pitchOf size - 1 - (place.y.val + pitchOf size - 1 - (scaleOf size * r + b))) / scaleOf size = r := by
    cases size <;> simp only [scaleOf, pitchOf] at * <;> omega
  have column : (place.x.val + scaleOf size * c + a - place.x.val) / scaleOf size = c := by
    cases size <;> simp only [scaleOf] at * <;> omega
  simp only [glyphLit, row, column]

/-- The panel cells of a glyph cell lie within the character's advance and pitch (R42). -/
theorem cell_in_box (size : Size) (r c a b : Nat) (hr : r < 16) (hc : c < 8) (ha : a < scaleOf size)
    (hb : b < scaleOf size) :
    scaleOf size * c + a < advanceOf size ∧ scaleOf size * r + b < pitchOf size := by
  cases size <;> simp only [scaleOf, advanceOf, pitchOf] at * <;> omega

/-- A cell of a character's box lies in the span that its place tells (R42). -/
theorem charSpan_at_cell (size : Size) (place : Point) (rows : List Byte) (x y : Nat)
    (inside : inRect (charBox size place) x y = true) :
    let n := rectIndex (charBox size place) x y
    n < charSpans size place ∧ (charSpan size place rows n).row.val = y ∧
      (charSpan size place rows n).group.val = x / 16 ∧ (charSpan size place rows n).box.getLsbD (x % 16) = true := by
  intro n
  obtain ⟨⟨-, -, right⟩, -, -, top⟩ := (inRect_charBox size place x y).mp inside
  have hn : n < charSpans size place := charSpans_eq size place ▸ (rectIndex_spec _ x y inside).1
  have inRow : (coord y).val = y := Nat.mod_eq_of_lt (Nat.lt_succ_of_le top)
  have inGroup : (group (x / 16)).val = x / 16 := Nat.mod_eq_of_lt (by omega)
  have cell : 16 * (group (x / 16)).val + x % 16 = x := by rw [inGroup, Nat.div_add_mod]
  obtain ⟨row, group', lit⟩ :=
    (charSpan_holds_iff size place rows n hn (coord y) (group (x / 16)) (x % 16) (Nat.mod_lt _ (by decide))).mpr
      (by rw [cell, inRow]; exact ⟨inside, rfl⟩)
  exact ⟨hn, row ▸ inRow, group' ▸ inGroup, lit⟩

/-- Settles O18: a character's spans are those of its box as a rectangle, and they show the glyph cell over each cell. -/
theorem characterCoversItsBox : Obligations.CharacterCoversItsBox := by
  intro size place rows
  refine ⟨rfl, rfl, by cases size <;> rfl, by cases size <;> rfl, ?_, ?_⟩
  · intro r c a b hr hc ha hb x y hx hy
    obtain ⟨across, down⟩ := cell_in_box size r c a b hr hc ha hb
    have inside : inRect (charBox size place) x y = true :=
      (inRect_charBox size place x y).mpr ⟨⟨by omega, by omega, hx⟩, by omega, by omega, hy⟩
    obtain ⟨hn, row, group, lit⟩ := charSpan_at_cell size place rows x y inside
    refine ⟨_, hn, row, group, lit, ?_⟩
    rw [charSpan_on_getLsbD _ _ _ _ _ (Nat.mod_lt _ (by decide)), lit, row, group, Nat.div_add_mod, Bool.true_and]
    exact glyphLit_of_cell size place rows r c a b hr ha hb
  · intro n k hn hk lit x y
    obtain ⟨inside, -⟩ := (charSpan_holds_iff size place rows n hn _ _ k hk).mp ⟨rfl, rfl, lit⟩
    obtain ⟨⟨left, across, right⟩, low, down, top⟩ := (inRect_charBox size place x y).mp inside
    exact ⟨left, across, right, low, down, top⟩

end Sys2Proof.Machine
end

section
/-! PROOFS. The characters of a TEXT: the channel at the grant of a character's first and last span, and at its render. -/

namespace Sys2Proof.Machine

/-! ### The record at a grant -/

/-- A pending code is the next character, and the FIFO keeps its words (R40). -/
theorem nextCode_of_pending (left : Nat) (code : Byte) (fifo : List Word) :
    nextCode left (some code) fifo = some (code, none, fifo) := rfl

/-- Without a pending code the front word gives the next character, and keeps a second one where it remains (R40). -/
theorem nextCode_of_word (left : Nat) (w : Word) (rest : List Word) :
    nextCode left none (w :: rest) = some (highByte w, if 2 ≤ left then some (lowByte w) else none, rest) := rfl

/-- A character with a code to take presents its first span (R40, R43). -/
theorem formSpan_text_first (rowsOf : Byte → List Byte) (c : Chan) (left : Nat) (place : Point) (kept : Option Byte)
    (m : Option Nat) (order : c.order = some (.text left place kept none m)) (more : left ≠ 0) (code : Byte)
    (after : Option Byte) (fifo : List Word) (next : nextCode left kept c.fifo = some (code, after, fifo)) :
    formSpan rowsOf c =
      some (charSpan c.context.size place (rowsOf code) 0,
        { c with
          fifo := fifo
          order := some (textGranted c.context (left - 1) place after { code := code, rows := rowsOf code } 0) }) := by
  simp only [formSpan, order, if_neg more, next]

/-- A character in progress presents its next span (R42). -/
theorem formSpan_text_later (rowsOf : Byte → List Byte) (c : Chan) (left : Nat) (place : Point) (kept : Option Byte)
    (latch : Latch) (n : Nat) (order : c.order = some (.text left place kept (some latch) (some n))) :
    formSpan rowsOf c =
      some (charSpan c.context.size place latch.rows n,
        { c with order := some (textGranted c.context left place kept latch n) }) := by
  simp only [formSpan, order]

/-- The grant of a span before a character's last leaves the cursor (R42). -/
theorem textGranted_of_more (c : Context) (left : Nat) (place : Point) (kept : Option Byte) (latch : Latch) (n : Nat)
    (more : n + 1 < charSpans c.size place) :
    textGranted c left place kept latch n = .text left place kept (some latch) (some (n + 1)) :=
  if_pos more

/-- The grant of a character's last span advances the cursor (R44). -/
theorem textGranted_of_last (c : Context) (left : Nat) (place : Point) (kept : Option Byte) (latch : Latch) (n : Nat)
    (last : n + 1 = charSpans c.size place) :
    textGranted c left place kept latch n = .text left (advanceCursor c place) kept (some latch) none :=
  if_neg (last ▸ Nat.lt_irrefl _)

/-- The cursor behind a character, in the terms of the panel's rows modulo 512 (R44). -/
theorem advanceCursor_eq (c : Context) (place : Point) :
    advanceCursor c place =
      { x := if 512 ≤ place.x.val + advanceOf c.size then c.margin else coord (place.x.val + advanceOf c.size)
        y := if 512 ≤ place.x.val + advanceOf c.size then coord ((place.y.val + 512 - pitchOf c.size) % 512)
          else place.y } := by
  have down : pitchDown c.size place.y = coord ((place.y.val + 512 - pitchOf c.size) % 512) := by
    have low := place.y.isLt
    have value := pitchDown_val c.size place.y
    refine Fin.ext ?_
    simp only [coord]
    split at value <;> omega
  by_cases wraps : 512 ≤ place.x.val + advanceOf c.size
  · rw [advanceCursor, if_pos wraps, if_pos wraps, if_pos wraps, down]
  · rw [advanceCursor, if_neg wraps, if_neg wraps, if_neg wraps]

/-! ### The channel at a grant -/

/-- A TEXT has no unit (R3). -/
theorem unitReady_text (s : State) (ch : Channel) (left : Nat) (place : Point) (kept : Option Byte)
    (current : Option Latch) (next : Option Nat) (order : (s.chan ch).order = some (.text left place kept current next)) :
    unitReady s ch = false := by
  simp only [unitReady, order]

/-- The render of a character's span before its last leaves the channel alone (R15). -/
theorem spanRendered_text_more (c : Chan) (left : Nat) (place : Point) (kept : Option Byte) (latch : Latch) (n : Nat)
    (order : c.order = some (.text left place kept (some latch) (some n))) : spanRendered c = c := by
  simp only [spanRendered, order]

/-- The render of a TEXT's last span sets the position and pen fresh, and completes the order (R44, R45). -/
theorem spanRendered_text_end (c : Chan) (place : Point) (kept : Option Byte) (latch : Latch)
    (order : c.order = some (.text 0 place kept (some latch) none)) :
    spanRendered c = { c with order := none, context := { c.context with position := place, penFresh := true } } := by
  simp only [spanRendered, order, if_true]

/-- The render of another character's last span sets the position, and the order goes on (R44). -/
theorem spanRendered_text_character (c : Chan) (left : Nat) (place : Point) (kept : Option Byte) (latch : Latch)
    (more : left ≠ 0) (order : c.order = some (.text left place kept (some latch) none)) :
    spanRendered c =
      { c with order := some (.text left place kept none none), context := { c.context with position := place } } := by
  simp only [spanRendered, order, if_neg more]

/-- A span that is granted has rendered when the engine is FREE again, and is held otherwise (R7). -/
theorem grantTo_span_held (ch : Channel) (s : State) (p : Span) (c : Chan) (noUnit : unitReady s ch = false)
    (ready : spanReady s ch = some (p, c)) :
    ((grantTo ch s).engine.held = none ∧ (grantTo ch s).chan ch = spanRendered c) ∨
      ((grantTo ch s).engine.held ≠ none ∧ (grantTo ch s).chan ch = c) := by
  have advanced : (spanGranted ch c s).chan ch = c := State.withChan_chan _ ch c
  rw [grantTo_of_span ch s p c noUnit ready]
  rcases placeSpan_cases { channel := ch, span := p } (spanGranted ch c s) with ⟨-, e⟩ | ⟨-, e⟩ <;> rw [e]
  · exact .inl ⟨by rw [renderSpan_engine], (renderSpan_chan _ _).1.trans (congrArg spanRendered advanced)⟩
  · exact .inr ⟨Option.some_ne_none _, advanced⟩

/-- The event in which a span of the order in progress is granted: the span has rendered, or is held. -/
theorem span_granted_closed (ch : Channel) (s : State) (p : Span) (c : Chan) (noUnit : unitReady s ch = false)
    (ready : spanReady s ch = some (p, c)) :
    let t := closeEvent (grantTo ch (beginEvent s))
    (t.engine.held = none ∧ t.chan ch = spanRendered c) ∨ (t.engine.held ≠ none ∧ t.chan ch = c) := by
  have result := grantTo_span_held ch (beginEvent s) p c ((unitReady_beginEvent s ch).trans noUnit)
    ((spanReady_beginEvent s ch).trans ready)
  simpa [closeEvent_chan] using result

/-- At the grant of a character's first span its code leaves, and its rows are latched; the render changes nothing of the
channel where the character has a second span (R40, R43). -/
theorem text_first_granted (ch : Channel) (s : State) (left : Nat) (place : Point) (kept : Option Byte) (m : Option Nat)
    (order : (s.chan ch).order = some (.text left place kept none m)) (more : left ≠ 0)
    (two : 2 ≤ charSpans (s.chan ch).context.size place) (code : Byte) (after : Option Byte) (fifo : List Word)
    (next : nextCode left kept (s.chan ch).fifo = some (code, after, fifo)) :
    (closeEvent (grantTo ch (beginEvent s))).chan ch =
      { s.chan ch with
        fifo := fifo
        order := some (.text (left - 1) place after
          (some { code := code, rows := glyphRows s.engine.glyphs code }) (some 1)) } := by
  have ready := formSpan_text_first (glyphRows s.engine.glyphs) _ left place kept m order more code after fifo next
  rw [textGranted_of_more _ _ _ _ _ _ two] at ready
  rcases span_granted_closed ch s _ _ (unitReady_text s ch _ _ _ _ _ order) ready with ⟨-, e⟩ | ⟨-, e⟩ <;> rw [e]
  exact spanRendered_text_more _ _ _ _ _ _ rfl

/-- Settles O19: the grant of a first span latches the character, and that of a last span advances the cursor. -/
theorem textDrawsItsCharacters : Obligations.TextDrawsItsCharacters := by
  intro s ch left place kept c size
  refine ⟨?_, ?_⟩
  · intro m more granted two
    refine ⟨_, exec_orderCommand ch s _ granted, fun code pending => ?_, fun w rest noCode words => ?_⟩
    · subst pending
      exact text_first_granted ch s left place _ m granted.2 more two code none _ (nextCode_of_pending left code _)
    · subst noCode
      exact text_first_granted ch s left place _ m granted.2 more two _ _ rest (words ▸ nextCode_of_word left w rest)
  · intro latch n granted last wraps next
    have ready := formSpan_text_later (glyphRows s.engine.glyphs) _ left place kept latch n granted.2
    have cursor : advanceCursor c.context place = next := advanceCursor_eq c.context place
    rw [textGranted_of_last _ _ _ _ _ _ last, cursor] at ready
    refine ⟨_, exec_orderCommand ch s _ granted, ?_⟩
    rcases span_granted_closed ch s _ _ (unitReady_text s ch _ _ _ _ _ granted.2) ready with ⟨free, e⟩ | ⟨held, e⟩
    · refine ⟨fun _ => ?_, fun held => absurd free held⟩
      by_cases done : left = 0
      · subst done
        rw [e, spanRendered_text_end _ next kept latch rfl]
        exact ⟨rfl, fun _ => ⟨rfl, rfl⟩, fun more => absurd rfl more⟩
      · rw [e, spanRendered_text_character _ left next kept latch done rfl]
        exact ⟨rfl, fun atEnd => absurd atEnd done, fun _ => rfl⟩
    · exact ⟨fun free => absurd free held, fun _ => e⟩

end Sys2Proof.Machine
end

section
/-! PROOFS. Room in the strike queue: which claim of the two producers is served, and that a service sets the room turn. -/

namespace Sys2Proof.Machine

/-! ### The claims -/

/-- A span needs room when its row is not stale and its clipped box is not empty (R8). -/
theorem needsRoom_iff (s : State) (h : Held) :
    needsRoom s h = true ↔ isStale s h.span.row = false ∧ clippedBox s h.channel h.span ≠ 0 := by
  simp [needsRoom]

theorem SameDrawing.needsRoom {s t : State} {h : Held} (same : SameDrawing h.channel s t) :
    Machine.needsRoom t h = Machine.needsRoom s h := by
  rw [Machine.needsRoom, same.isStale, same.clippedBox, Machine.needsRoom]

/-- The engine claims room for the span it holds alone (R65). -/
theorem engineClaims_of_held (s : State) (h : Held) (held : s.engine.held = some h) : engineClaims s = needsRoom s h := by
  rw [engineClaims, held]

theorem engineClaims_of_no_need (s : State) (noNeed : ∀ h, s.engine.held = some h → needsRoom s h = false) :
    engineClaims s = false := by
  cases held : s.engine.held with
  | none => rw [engineClaims, held]
  | some h => rw [engineClaims_of_held s h held, noNeed h held]

/-- A held span that needs room renders when the engine is served (R7, R66). -/
theorem renderDue_of_need (s : State) (h : Held) (held : s.engine.held = some h) (need : needsRoom s h = true) :
    renderDue s = (decide (2 ≤ strikeFree s) && (!scannerClaims s || s.strikes.turn == .scanner)) := by
  rw [renderDue, held]
  simp [renderCondition, need, engineServed]

/-! ### A service sets the room turn -/

/-- The drawing of a span that needs room serves the engine (R65). -/
theorem drawSpan_turn (h : Held) (s : State) (need : needsRoom s h = true) : (drawSpan h s).strikes.turn = .engine := by
  obtain ⟨fresh, nonempty⟩ := (needsRoom_iff s h).mp need
  rcases drawSpan_cases h s with ⟨empty, -⟩ | ⟨-, -, ⟨stale, -⟩ | ⟨-, e⟩⟩
  · exact absurd empty nonempty
  · simp [fresh] at stale
  · rw [e]

theorem exec_spanRender_turn (s : State) (h : Held) (held : s.engine.held = some h) (need : needsRoom s h = true)
    (due : renderDue s = true) : ∃ t, exec .spanRender s = .next t ∧ t.strikes.turn = .engine := by
  have ready : renderCondition s h = true := by rwa [renderDue, held] at due
  have need' : needsRoom (beginEvent s) h = true := (SameDrawing.beginEvent h.channel s).needsRoom.trans need
  refine ⟨_, exec_spanRender s h held ready, ?_⟩
  simpa [renderSpan_strikes] using drawSpan_turn h (beginEvent s) need'

/-- A restore step is due only with a current row (R65). -/
theorem current_of_restoreDue (s : State) (due : restoreDue s = true) : ∃ cur, s.tracker.scanner.current = some cur := by
  obtain ⟨⟨⟨-, claim⟩, -⟩, -⟩ : ((_ ∧ s.tracker.scanner.current.isSome = true) ∧ _) ∧ _ := by
    simpa only [restoreDue, scannerClaims, Bool.and_eq_true] using due
  exact Option.isSome_iff_exists.mp claim

theorem exec_restoreStep_turn (s : State) (due : restoreDue s = true) :
    ∃ t, exec .restoreStep s = .next t ∧ t.strikes.turn = .scanner := by
  obtain ⟨cur, current⟩ := current_of_restoreDue s due
  have current' : (beginEvent s).tracker.scanner.current = some cur := by
    rw [beginEvent_eq, State.withEvent_tracker, current]
  refine ⟨closeEvent (restoreStep (beginEvent s)), ?_, ?_⟩
  · simp only [exec, execRestoreStep, due, stepWhen_true, withinEvent]
  · simp [restoreStep_some _ cur current']

/-- Settles O9, by who claims: with both claims the room turn decides, and a single claim needs 2 free items alone. -/
theorem roomIsShared : Obligations.RoomIsShared := by
  intro s
  refine ⟨fun h held need => ?_, fun noNeed claims => ?_, fun idle => ?_, exec_restoreStep_turn s⟩
  · have claim : engineClaims s = true := (engineClaims_of_held s h held).trans need
    refine ⟨fun full => ?_, fun room idle => ?_, fun room claims => ?_, exec_spanRender_turn s h held need⟩ <;>
      rw [renderDue_of_need s h held need, restoreDue, claim]
    · simp [Nat.not_le.mpr full]
    · simp [room, idle]
    · simp [room, claims]
  · rw [restoreDue, claims, engineClaims_of_no_need s noNeed]
    exact ⟨fun room => by simp [room], fun full => by simp [Nat.not_le.mpr full]⟩
  · simp [restoreDue, idle]

end Sys2Proof.Machine
end

section
/-! PROOFS. The sustain cycle: the derivation of its dead time, pulse width and address slot, and the outputs at a place in
it. -/

namespace Sys2Proof.Machine

/-! ### The derivation -/

/-- The bounds of the derived times (R84). -/
theorem derived_bounds (t : Timing) (short : 40 ≤ t.period) (least : 1 ≤ t.dead) (dead : t.dead ≤ 16) :
    1 ≤ effectiveDead t ∧ effectiveDead t ≤ 16 ∧ 8 ≤ pulseWidth t := by
  unfold pulseWidth effectiveDead
  omega

/-- The pulses and dead times leave 8 quarters for the slot, and 9 in an odd period (R84). -/
theorem slotLength_eq (t : Timing) (short : 40 ≤ t.period) :
    slotLength t = 8 + t.period % 2 ∧ slotStart t + slotLength t = t.period := by
  unfold slotStart slotLength pulseWidth effectiveDead
  omega

/-! ### The outputs -/

section
variable (s : State) (c : Cycle) (running : s.sustain.cycle = some c)
include running

theorem xSustain_iff : xSustain s = true ↔ c.place < pulseWidth s.sustain.effectiveTiming := by
  simp [xSustain, cyclePlace, running]

theorem ySustain_iff :
    ySustain s = true ↔
      pulseWidth s.sustain.effectiveTiming + effectiveDead s.sustain.effectiveTiming ≤ c.place ∧
        c.place < 2 * pulseWidth s.sustain.effectiveTiming + effectiveDead s.sustain.effectiveTiming := by
  simp [ySustain, cyclePlace, running]

theorem drivenItem_of_slot (within : slotStart s.sustain.effectiveTiming ≤ c.place) : drivenItem s = c.drive := by
  simp [drivenItem, running, within]

theorem drivenItem_of_pulses (before : ¬slotStart s.sustain.effectiveTiming ≤ c.place) : drivenItem s = none := by
  simp [drivenItem, running, before]

/-- The strike is pulsed from the slot's third quarter to the end of its sixth (R70). -/
theorem pulsedItem_eq :
    pulsedItem s =
      if slotStart s.sustain.effectiveTiming + 2 ≤ c.place ∧ c.place < slotStart s.sustain.effectiveTiming + 6 then
        c.drive
      else none := by
  simp only [pulsedItem, cyclePlace, running, Option.map_some]
  split
  · rename_i pulsed
    exact drivenItem_of_slot s c running (by omega)
  · rfl

/-- An item is pulsed when it is driven and its quarters have come (R70). -/
theorem pulsedItem_eq_some (item : StrikeItem) :
    pulsedItem s = some item ↔
      (slotStart s.sustain.effectiveTiming + 2 ≤ c.place ∧ c.place < slotStart s.sustain.effectiveTiming + 6) ∧
        c.drive = some item := by
  rw [pulsedItem_eq s c running]
  split <;> simp [*]

end

/-- A strike signal is that of the item pulsed (R70). -/
theorem strikeSignal_iff (s : State) :
    (writeStrike s = true ↔ ∃ y g cells, pulsedItem s = some (.strike .write y g cells)) ∧
      (eraseStrike s = true ↔ ∃ y g cells, pulsedItem s = some (.strike .erase y g cells)) ∧
      (bulkStrike s = true ↔ pulsedItem s = some .bulk) := by
  unfold writeStrike eraseStrike bulkStrike
  cases pulsedItem s with
  | none => simp
  | some item =>
    cases item with
    | bulk => simp
    | strike kind y g cells => cases kind <;> simp

/-- A strike signal is given only while some item is pulsed (R70). -/
theorem pulsedItem_of_signal (s : State) (given : writeStrike s = true ∨ eraseStrike s = true ∨ bulkStrike s = true) :
    ∃ item, pulsedItem s = some item := by
  obtain ⟨write, erase, bulk⟩ := strikeSignal_iff s
  rcases given with h | h | h
  · obtain ⟨y, g, cells, pulsed⟩ := write.mp h
    exact ⟨_, pulsed⟩
  · obtain ⟨y, g, cells, pulsed⟩ := erase.mp h
    exact ⟨_, pulsed⟩
  · exact ⟨_, bulk.mp h⟩

/-- The address outputs carry the row, group and cells of the strike driven (R70). -/
theorem addressOutputs_of_strike (s : State) (kind : StrikeKind) (y : Coord) (g : Group) (cells : Cells)
    (driven : drivenItem s = some (.strike kind y g cells)) :
    rowSelect s = y.val ∧ groupSelect s = g.val ∧ cellData s = cells := by
  simp [rowSelect, groupSelect, cellData, driven]

/-- For a bulk strike and outside every window they are zero (R70). -/
theorem addressOutputs_zero (s : State) (idle : drivenItem s = none ∨ drivenItem s = some .bulk) :
    rowSelect s = 0 ∧ groupSelect s = 0 ∧ cellData s = 0 := by
  rcases idle with driven | driven <;> simp [rowSelect, groupSelect, cellData, driven]

/-- With no cycle in progress no output is given (R70, R79). -/
theorem outputs_of_no_cycle (s : State) (stopped : s.sustain.cycle = none) :
    xSustain s = false ∧ ySustain s = false ∧ writeStrike s = false ∧ eraseStrike s = false ∧ bulkStrike s = false ∧
      drivenItem s = none := by
  simp [xSustain, ySustain, writeStrike, eraseStrike, bulkStrike, pulsedItem, drivenItem, cyclePlace, stopped]

/-- Settles O37: the derived times by arithmetic, and each output from the item driven or pulsed at the cycle's place. -/
theorem cycleIsDerived : Obligations.CycleIsDerived := by
  intro t short _ least dead d w
  obtain ⟨dPos, dLe, wGe⟩ := derived_bounds t short least dead
  obtain ⟨length, total⟩ := slotLength_eq t short
  refine ⟨rfl, rfl, rfl, dPos, dLe, wGe, by simpa only [slotStart] using total, length, total, ?_⟩
  rintro s rfl
  refine ⟨?_, fun stopped => ?_⟩
  · intro c running _ inSlot pulsed
    have x := xSustain_iff s c running
    have y := ySustain_iff s c running
    have item := pulsedItem_eq_some s c running
    obtain ⟨write, erase, bulk⟩ := strikeSignal_iff s
    refine ⟨x, y, ?_, ?_, ?_, bulk.trans (item _), fun given => ?_, fun kind row g cells within drive => ?_, fun idle => ?_⟩
    · rw [x, y]
      omega
    · simp only [write, item, exists_and_left]
      rfl
    · simp only [erase, item, exists_and_left]
      rfl
    · obtain ⟨_, given⟩ := pulsedItem_of_signal s given
      obtain ⟨⟨late, -⟩, -⟩ := (item _).mp given
      unfold slotStart at late
      rw [Bool.eq_false_iff, Bool.eq_false_iff, Ne, Ne, x, y]
      omega
    · exact addressOutputs_of_strike s kind row g cells ((drivenItem_of_slot s c running within).trans drive)
    · refine addressOutputs_zero s ?_
      by_cases within : slotStart s.sustain.effectiveTiming ≤ c.place
      · rw [drivenItem_of_slot s c running within]
        exact idle.resolve_left (not_not_intro within)
      · exact .inl (drivenItem_of_pulses s c running within)
  · obtain ⟨x, y, write, erase, bulk, driven⟩ := outputs_of_no_cycle s stopped
    exact ⟨x, y, write, erase, bulk, addressOutputs_zero s (.inl driven)⟩

end Sys2Proof.Machine
end

section
/-! PROOFS. Address windows: an event in which no comparison changes, the panel after the head item's strike, and the row
the scanner takes first. -/

namespace Sys2Proof.Machine

/-! ### An event that raises no flag -/

/-- Where everything a comparison reads is at the end of an event as it was at its beginning, and no step is due, the event
ends with no flag raised (R60, R74, R132). -/
theorem closeEvent_of_observe (s t : State) (begun : t.event = some (observe s)) (rest : dueStep t = none)
    (same : observe t = observe s) : closeEvent t = t.withEvent none := by
  have shut : resumeOpen t = false := by
    rw [resumeOpen, opening, begun]
    rfl
  simp only [closeEvent, rest, shut, endEvent, begun, same, raiseWhen, Option.isSome_none, Bool.or_self,
    Bool.not_and_self, Bool.false_eq_true, if_false]

theorem beginEvent_of_atRest (s : State) (rest : AtRest s) : beginEvent s = s.withEvent (some (observe s)) := by
  simp only [beginEvent, rest.1]

/-- An event without effect at rest leaves the state as it is. -/
theorem closeEvent_beginEvent (s : State) (rest : AtRest s) : closeEvent (beginEvent s) = s := by
  have ended := closeEvent_of_observe s (s.withEvent (some (observe s))) rfl rest.2 rfl
  rw [beginEvent_of_atRest s rest, ended, State.withEvent_twice, ← rest.1, State.withEvent_self]

@[simp] theorem beginEvent_frame (s : State) :
    (beginEvent s).strikes = s.strikes ∧ (beginEvent s).sustain = s.sustain ∧ (beginEvent s).tracker = s.tracker ∧
      (beginEvent s).panel = s.panel ∧ (beginEvent s).port = s.port := by
  simp [beginEvent_eq]

/-! ### The panel after a strike -/

/-- A strike changes the cells of its own row-group alone (R62). -/
theorem sparseGet_applyStrike_rowKey (kind : StrikeKind) (r y : Coord) (h g : Group) (cells : Cells)
    (lit : List (Nat × Cells)) (wf : TableWf 0 16384 lit) :
    sparseGet 0 (applyItem (.strike kind r h cells) lit) (rowKey y g) =
      if r = y ∧ h = g then struck kind cells (sparseGet 0 lit (rowKey y g)) else sparseGet 0 lit (rowKey y g) := by
  have here : rowKey y g = rowKey r h ↔ r = y ∧ h = g := by
    refine ⟨fun e => ?_, fun ⟨row, grp⟩ => by rw [row, grp]⟩
    obtain ⟨row, grp⟩ := rowKey_inj y r g h e
    exact ⟨row.symm, grp.symm⟩
  simp only [sparseGet_applyStrike kind r h cells lit wf, here]

theorem struck_getLsbD (kind : StrikeKind) (cells old : Cells) (k : Nat) (hk : k < 16) :
    (struck kind cells old).getLsbD k =
      match kind with
      | .write => old.getLsbD k || cells.getLsbD k
      | .erase => old.getLsbD k && !cells.getLsbD k := by
  cases kind <;> simp [struck, hk]

/-! ### The row taken first -/

/-- A stale row at the sweep row is the row to take (R92). -/
theorem rowToTake_of_stale (sweep : Nat) (stale : List (Nat × StaleKind)) (wf : SparseWf .coherent stale)
    (marked : sparseGet .coherent stale sweep ≠ .coherent) :
    rowToTake stale sweep = some (sweep, sparseGet .coherent stale sweep) := by
  suffices found : (stale.find? fun p => sweep ≤ p.1) = some (sweep, sparseGet .coherent stale sweep) by
    rw [rowToTake, found]
  induction stale with
  | nil => exact absurd rfl marked
  | cons p rest ih =>
    obtain ⟨row, kind⟩ := p
    obtain ⟨first, later⟩ := List.pairwise_cons.mp wf.1
    rcases Nat.lt_trichotomy sweep row with before | rfl | behind
    · refine absurd (sparseGet_below _ _ sweep fun p listed => ?_) marked
      rcases List.mem_cons.mp listed with rfl | listed
      · exact before
      · exact Nat.lt_trans before (first p listed)
    · simp [sparseGet]
    · have skip : sparseGet .coherent ((row, kind) :: rest) sweep = sparseGet .coherent rest sweep :=
        if_neg (Nat.ne_of_gt behind)
      rw [skip] at marked ⊢
      rw [List.find?_cons_of_neg (by simpa using behind)]
      exact ih ⟨later, fun p listed => wf.2 p (List.mem_cons_of_mem _ listed)⟩ marked

theorem coord_val (y : Coord) : coord y.val = y := Fin.ext (Nat.mod_eq_of_lt y.isLt)

/-- On a LIVE panel whose sweep row is stale a scanner without a current row becomes ACTIVE and takes that row (R91, R92). -/
theorem activateScanner_takes (s : State) (wf : SparseWf .coherent s.tracker.stale) (live : s.sustain.panelState = .live)
    (free : s.tracker.scanner.current = none) (marked : staleAt s s.tracker.scanner.sweep ≠ .coherent) :
    activateScanner s =
      s.withTracker
        { stale := sparseSet .coherent s.tracker.stale s.tracker.scanner.sweep.val .coherent
          scanner :=
            { s.tracker.scanner with
              active := true
              current :=
                some { row := s.tracker.scanner.sweep, kind := staleAt s s.tracker.scanner.sweep, next := 0 } } } := by
  have nonempty : s.tracker.stale ≠ [] := fun empty => marked (by rw [staleAt, empty, sparseGet])
  have row := rowToTake_of_stale s.tracker.scanner.sweep.val s.tracker.stale wf marked
  rw [activateScanner, if_neg nonempty]
  simp [takeRow, live, free, row, coord_val, staleAt]

/-! ### The window -/

/-- ADDRESS_WINDOW at rest is an event of its own (R81). -/
theorem exec_addressWindow (s : State) (rest : AtRest s) :
    exec .addressWindow s = .next (closeEvent (windowOpens (beginEvent s))) := by
  show Host.Outcome.next (atEvent windowOpens s) = _
  rw [atEvent_of_closed _ s (resumeOpen_of_atRest s rest), finish_of_atRest s rest]

theorem windowOpens_of_live (s : State) (divider : s.sustain.divider = 0) (live : s.sustain.panelState = .live) :
    windowOpens s = liveWindow s := by
  simp [windowOpens, divider, live]

theorem windowOpens_of_priming (s : State) (divider : s.sustain.divider = 0) (priming : s.sustain.panelState = .priming) :
    windowOpens s = primingWindow s := by
  simp [windowOpens, divider, priming]

/-- No window opens in a cycle whose divider count is not 0, nor on a DARK panel (R81). -/
theorem windowOpens_of_closed (s : State) (closed : s.sustain.divider ≠ 0 ∨ s.sustain.panelState = .dark) :
    windowOpens s = s := by
  rcases closed with divider | dark
  · exact if_pos divider
  · simp [windowOpens, dark]

theorem liveWindow_of_empty (s : State) (empty : s.strikes.items = []) :
    liveWindow s = s.withSustain (openSlot none s.sustain) := by
  simp [liveWindow, empty]

/-- A window on a LIVE panel with an empty queue passes unused: it opens the slot, and raises no flag (R69). -/
theorem addressWindow_unused (s : State) (rest : AtRest s) (divider : s.sustain.divider = 0)
    (live : s.sustain.panelState = .live) (empty : s.strikes.items = []) :
    exec .addressWindow s = .next (s.withSustain (openSlot none s.sustain)) := by
  let t := s.withSustain (openSlot none s.sustain)
  have opened : windowOpens (beginEvent s) = t.withEvent (some (observe s)) := by
    rw [windowOpens_of_live _ (by simpa using divider) (by simpa using live), liveWindow_of_empty _ (by simpa using empty),
      beginEvent_of_atRest s rest]
    rfl
  have ended := closeEvent_of_observe s (t.withEvent (some (observe s))) rfl rest.2 rfl
  have shut : t.event = none := rest.1
  rw [exec_addressWindow s rest, opened, ended, State.withEvent_twice, ← shut, State.withEvent_self]

/-- A window on a LIVE panel applies the head item (R69). -/
theorem liveWindow_of_head (s : State) (item : StrikeItem) (rest : List StrikeItem) (head : s.strikes.items = item :: rest) :
    liveWindow s =
      ((s.withSustain (openSlot (some item) s.sustain)).withStrikes { s.strikes with items := rest }).withPanel
        { s.panel with lit := applyItem item s.panel.lit } := by
  simp [liveWindow, head]

theorem liveWindow_onlyChanges (s : State) (item : StrikeItem) (rest : List StrikeItem)
    (head : s.strikes.items = item :: rest) : OnlyChanges [.items, .cycle, .panel] s (liveWindow s) := by
  intro p hp
  rw [liveWindow_of_head s item rest head]
  cases p <;> simp [SamePart, openSlot] at hp ⊢

/-- What a window on a LIVE panel leaves of the head item (R62, R69, R70). -/
theorem addressWindow_of_head (s : State) (rest : AtRest s) (divider : s.sustain.divider = 0)
    (live : s.sustain.panelState = .live) (item : StrikeItem) (items : List StrikeItem)
    (head : s.strikes.items = item :: items) :
    ∃ t, exec .addressWindow s = .next t ∧ t.strikes = { s.strikes with items := items } ∧
      t.sustain.cycle = some { place := slotStart s.sustain.effectiveTiming, drive := some item } ∧
      t.panel.lit = applyItem item s.panel.lit ∧ OnlyChanges [.items, .cycle, .panel, .flags] s t ∧ FlagsAfter [] s t := by
  have head' : (beginEvent s).strikes.items = item :: items := by simpa using head
  have opened := exec_addressWindow s rest
  rw [windowOpens_of_live _ (by simpa using divider) (by simpa using live)] at opened
  have frame := ((onlyChanges_beginEvent s).trans (liveWindow_onlyChanges _ item items head')).trans
    (onlyChanges_closeEvent _)
  have window := liveWindow_of_head _ item items head'
  refine ⟨_, opened, ?_, ?_, ?_, frame, (FlagsAfter.of_flags ?_).closed⟩ <;> simp [window, openSlot]

/-- The panel at the bulk strike of the priming window, before the scanner moves (R71, R82). -/
def primed (s : State) : State :=
  raiseFlag .panel
    ((s.withSustain { openSlot (some .bulk) s.sustain with panelState := .live }).withPanel { s.panel with lit := [] })

theorem primingWindow_eq (s : State) : primingWindow s = activateScanner (primed s) := rfl

/-- The scanner as the priming window leaves it, with the sweep row taken as BLANK (R91, R92). -/
def primedTracker (s : State) : Tracker :=
  { stale := sparseSet .coherent s.tracker.stale s.tracker.scanner.sweep.val .coherent
    scanner :=
      { s.tracker.scanner with
        active := true, current := some { row := s.tracker.scanner.sweep, kind := .blank, next := 0 } } }

theorem staleAt_of_allBlank (s : State) (blank : s.tracker.stale = allBlank) (y : Coord) : staleAt s y = .blank := by
  rw [staleAt, blank, allBlank_get]

/-- The priming window darkens the panel, which enters LIVE, and the scanner takes the sweep row (R71, R82, R91). -/
theorem primingWindow_of_allBlank (s : State) (blank : s.tracker.stale = allBlank)
    (free : s.tracker.scanner.current = none) : primingWindow s = (primed s).withTracker (primedTracker s) := by
  have kind := staleAt_of_allBlank (primed s) blank (primed s).tracker.scanner.sweep
  have wf : SparseWf .coherent (primed s).tracker.stale := by
    show SparseWf .coherent s.tracker.stale
    rw [blank]
    exact allBlank_wf.1
  rw [primingWindow_eq, activateScanner_takes (primed s) wf rfl free (by simp [kind]), kind]
  rfl

theorem staleAt_primedTracker (s : State) (blank : s.tracker.stale = allBlank) (y : Coord) :
    sparseGet .coherent (primedTracker s).stale y.val = if y = s.tracker.scanner.sweep then .coherent else .blank := by
  simp only [primedTracker, blank, sparseGet_set _ _ _ _ _ allBlank_wf.1, allBlank_get, Fin.ext_iff]

theorem primed_onlyChanges (s : State) :
    OnlyChanges [.panelState, .cycle, .panel, .stale, .scanner, .flags] s ((primed s).withTracker (primedTracker s)) := by
  intro p hp
  cases p <;> simp [SamePart, primed, openSlot] at hp ⊢

/-- The priming window raises PANEL (R87). -/
theorem primed_flags (s : State) : FlagsAfter [.panel] s ((primed s).withTracker (primedTracker s)) := by
  intro f
  have raised : flagSet f ((primed s).withTracker (primedTracker s)) = (flagSet f s || decide (f = .panel)) :=
    flagSet_raiseFlag .panel f _
  rw [raised]
  exact ⟨fun _ => by simp, fun set => by simp [set]⟩

/-- What the priming window leaves (R70, R71, R82, R91). -/
theorem addressWindow_of_priming (s : State) (rest : AtRest s) (divider : s.sustain.divider = 0)
    (priming : s.sustain.panelState = .priming) (blank : s.tracker.stale = allBlank)
    (free : s.tracker.scanner.current = none) :
    ∃ t, exec .addressWindow s = .next t ∧ t.sustain.panelState = .live ∧
      t.sustain.cycle = some { place := slotStart s.sustain.effectiveTiming, drive := some .bulk } ∧
      t.panel.lit = [] ∧ t.tracker = primedTracker s ∧
      OnlyChanges [.panelState, .cycle, .panel, .stale, .scanner, .flags] s t ∧ FlagsAfter [.panel] s t := by
  have opened := exec_addressWindow s rest
  have tracker : primedTracker (beginEvent s) = primedTracker s := by simp [primedTracker]
  rw [windowOpens_of_priming _ (by simpa using divider) (by simpa using priming),
    primingWindow_of_allBlank _ (by simpa using blank) (by simpa using free)] at opened
  have frame := ((onlyChanges_beginEvent s).trans (primed_onlyChanges _)).trans (onlyChanges_closeEvent _)
  have flags := (primed_flags (beginEvent s)).closed
  refine ⟨_, opened, ?_, ?_, ?_, ?_, frame.mono (by decide), fun f => ?_⟩
  · simp [primed]
  · simp [primed, openSlot]
  · simp [primed]
  · simp [tracker]
  · simpa [flagSet] using flags f

/-- Settles O32: each clause is the equation of its window, and the panel's cells are read after the item's strike. -/
theorem windowAppliesTheHead : Obligations.WindowAppliesTheHead := by
  intro s wf rest drives
  obtain ⟨-, -, litWf, -⟩ := wf
  refine ⟨fun item items divider live head => ?_, fun divider live empty => ?_, fun divider priming legal => ?_,
    fun closed => ?_⟩
  · obtain ⟨t, answer, strikes, cycle, lit, frame, flags⟩ := addressWindow_of_head s rest divider live item items head
    refine ⟨t, answer, strikes, cycle, fun y g k hk => ?_, frame, flags⟩
    rw [panelAt, lit]
    cases item with
    | bulk => exact BitVec.getLsbD_zero
    | strike kind r h cells =>
      rw [sparseGet_applyStrike_rowKey kind r y h g cells _ litWf]
      by_cases here : r = y ∧ h = g
      · rw [if_pos here, struck_getLsbD kind cells _ k hk]
        cases kind <;> simp [here, panelAt]
      · rw [if_neg here]
        cases kind <;> simp [here, panelAt]
  · refine ⟨_, addressWindow_unused s rest divider live empty, rfl, fun p hp => ?_⟩
    cases p <;> simp [SamePart, openSlot] at hp ⊢
  · obtain ⟨-, blank, idle⟩ := legal.1 (by simp [priming])
    obtain ⟨-, -, -, -, current, -⟩ := legal
    obtain ⟨t, answer, state, cycle, lit, tracker, frame, flags⟩ :=
      addressWindow_of_priming s rest divider priming blank (current idle)
    refine ⟨t, answer, state, cycle, fun y g => ?_, ?_, fun y => ?_, frame, flags⟩
    · rw [panelAt, lit, sparseGet]
    · rw [tracker]
      rfl
    · rw [staleAt, tracker, staleAt_primedTracker s blank]
  · rw [exec_addressWindow s rest, windowOpens_of_closed _ (by simpa using closed), closeEvent_beginEvent s rest]

end Sys2Proof.Machine
end

section
/-! PROOFS. The settled panel: with nothing queued and nothing to restore the panel shows the shadow image. -/

namespace Sys2Proof.Machine

/-- With no item queued the panel is what it projects to (section 7.6). -/
theorem projectedAt_of_empty (s : State) (empty : s.strikes.items = []) (y : Coord) (g : Group) :
    projectedAt s y g = panelAt s y g := by
  rw [projectedAt, projectedPanel, empty, List.foldl_nil, panelAt]

theorem isSettled_iff (s : State) :
    isSettled s = true ↔
      s.sustain.panelState = .live ∧ s.strikes.items = [] ∧ s.tracker.stale = [] ∧ s.tracker.scanner.active = false := by
  simp [isSettled, and_assoc]

/-- Settles O42: every row is COHERENT, nothing is left to restore, and nothing is queued. -/
theorem settledPanelShowsTheShadow : Obligations.SettledPanelShowsTheShadow := by
  intro s legal follows settled y g
  obtain ⟨live, queue, stale, idle⟩ := (isSettled_iff s).mp settled
  obtain ⟨projects, -⟩ := follows live
  obtain ⟨-, -, -, -, noRow, -⟩ := legal
  have coherent : staleAt s y = .coherent := by rw [staleAt, stale, sparseGet]
  have restored : toBeRestored s y g = false := by rw [toBeRestored, noRow idle]
  rw [← projectedAt_of_empty s queue, projects y g coherent restored]

end Sys2Proof.Machine
end

section
/-! PROOFS. Events that raise no flag: the control words that replace one register, the attention output, and the release of
the terminal reset input. -/

namespace Sys2Proof.Machine

/-! ### An event that ends in its direct effect -/

theorem dueStep_withEvent (s : State) (e : Option Before) : dueStep (s.withEvent e) = dueStep s := by
  simp only [dueStep, dueAmong, isDue_withEvent]

/-- An event at rest that leaves no step due, and all that a comparison reads as it was, ends in its direct effect with no flag
raised (R60, R74, R132). -/
theorem atEvent_of_quiet (f : State → State) (s t : State) (rest : AtRest s)
    (effect : f (s.withEvent (some (observe s))) = t.withEvent (some (observe s))) (event : t.event = s.event)
    (due : dueStep t = dueStep s) (same : observe t = observe s) : atEvent f s = t := by
  have idle : dueStep (t.withEvent (some (observe s))) = none := by rw [dueStep_withEvent, due, rest.2]
  have ended := closeEvent_of_observe s (t.withEvent (some (observe s))) rfl idle same
  have shut : t.event = none := event.trans rest.1
  rw [atEvent_of_atRest f s rest, effect, ended, State.withEvent_twice, ← shut, State.withEvent_self]

/-! ### The control words -/

/-- A write is taken while the terminal reset input is not asserted (R129). -/
theorem whenTaken_of_released (f : State → State) (s : State) (released : s.terminalReset = false) :
    whenTaken f s = f s := by
  simp only [whenTaken, released, Bool.false_eq_true, if_false]

/-- A write that is taken at rest and after which all is quiet is its direct effect. -/
theorem atEvent_whenTaken (f : State → State) (s : State) (rest : AtRest s) (released : s.terminalReset = false)
    (effect : f (s.withEvent (some (observe s))) = (f s).withEvent (some (observe s))) (event : (f s).event = s.event)
    (due : dueStep (f s) = dueStep s) (same : observe (f s) = observe s) : atEvent (whenTaken f) s = f s :=
  have taken := whenTaken_of_released f (s.withEvent (some (observe s))) released
  atEvent_of_quiet _ s _ rest (Eq.trans taken effect) event due same

/-- Every bit of EVENTS is a flag's (R142). -/
theorem exists_flagBit : ∀ k, k < 8 → ∃ f, flagBit f = k
  | 0, _ => ⟨.space, rfl⟩
  | 1, _ => ⟨.refused, rfl⟩
  | 2, _ => ⟨.drained, rfl⟩
  | 3, _ => ⟨.input, rfl⟩
  | 4, _ => ⟨.takeover, rfl⟩
  | 5, _ => ⟨.panel, rfl⟩
  | 6, _ => ⟨.halt, rfl⟩
  | 7, _ => ⟨.settled, rfl⟩

/-- The attention output is asserted exactly when a flag is set and enabled (R133). -/
theorem attention_iff (s : State) :
    attention s = true ↔ ∃ f, flagSet f s = true ∧ s.port.enables.getLsbD (flagBit f) = true := by
  have bit (k : Nat) : (s.port.flags &&& s.port.enables).getLsbD k = true ↔
      s.port.flags.getLsbD k = true ∧ s.port.enables.getLsbD k = true := by
    rw [BitVec.getLsbD_and, Bool.and_eq_true]
  rw [attention, bne_iff_ne]
  constructor
  · intro nonzero
    refine Classical.byContradiction fun silent => nonzero (BitVec.eq_of_getLsbD_eq fun k hk => ?_)
    obtain ⟨f, rfl⟩ := exists_flagBit k hk
    have unset := Bool.eq_false_iff.mpr fun both => silent ⟨f, (bit (flagBit f)).mp both⟩
    exact unset.trans BitVec.getLsbD_zero.symm
  · rintro ⟨f, both⟩ zero
    have raised := (bit (flagBit f)).mpr both
    rw [zero] at raised
    exact absurd raised (by simp)

/-- Settles O55: no register that these words replace is read by a step or by a comparison. -/
theorem controlWordsReplaceTheirRegister : Obligations.ControlWordsReplaceTheirRegister := by
  intro s a rest released
  have taken (f : State → State) := atEvent_whenTaken f s rest released
  refine ⟨congrArg Host.Outcome.next (taken (ackFlags (flagSetOf a)) rfl rfl rfl rfl),
    congrArg Host.Outcome.next (taken (setEnables (flagSetOf a)) rfl rfl rfl rfl),
    congrArg Host.Outcome.next (taken (selectField (fieldOf a)) rfl rfl rfl rfl),
    congrArg Host.Outcome.next (taken panelOff rfl rfl rfl rfl), fun location word => ?_, attention_iff s⟩
  exact congrArg Host.Outcome.next (atEvent_of_quiet id s s rest rfl rfl rfl rfl)

/-! ### The release of terminal reset -/

theorem SamePart.refl (s : State) (p : Part) : SamePart s s p := by cases p <;> simp only [SamePart, and_self]

/-- The state after the release of the terminal reset input, with the sustain generator as the comparison leaves it. -/
def releasedState (s : State) (g : Sustain) : State :=
  ((s.withTerminalReset false).withTouch { s.touch with timer := some 40000 }).withSustain g

/-- The release starts the scan timer, and the monitor in LOW compares the supply (R75, R111). -/
theorem releaseReset_of_low (s : State) (asserted : s.terminalReset = true) (low : s.sustain.supplyState = .low) :
    releaseReset s =
      releasedState s
        (if recoverOf s.station.effective.pair < s.sustain.supply then
          { s.sustain with supplyState := .settling, settle := some 80000 }
        else s.sustain) := by
  have compared := compareSupply_of_low ((s.withTerminalReset false).withTouch { s.touch with timer := some 40000 }) low
  rw [releaseReset, if_pos asserted]
  by_cases above : recoverOf s.station.effective.pair < s.sustain.supply
  · rw [if_pos above]
    exact compared.trans (if_pos above)
  · rw [if_neg above]
    exact compared.trans (if_neg above)

/-- TERMINAL_RESET_RELEASE at rest raises no flag: the panel state is kept (R75, R111). -/
theorem exec_terminalResetRelease (s : State) (rest : AtRest s) (asserted : s.terminalReset = true)
    (low : s.sustain.supplyState = .low) :
    exec .terminalResetRelease s =
      .next
        (releasedState s
          (if recoverOf s.station.effective.pair < s.sustain.supply then
            { s.sustain with supplyState := .settling, settle := some 80000 }
          else s.sustain)) := by
  have effect := releaseReset_of_low (s.withEvent (some (observe s))) asserted low
  refine congrArg Host.Outcome.next (atEvent_of_quiet releaseReset s _ rest effect rfl rfl ?_)
  split <;> rfl

theorem releasedState_onlyChanges (s : State) (g : Sustain) (monitor : OnlyChanges [.supply] s (s.withSustain g)) :
    OnlyChanges [.terminalReset, .scanTimer, .supply] s (releasedState s g) := by
  have released : OnlyChanges [.terminalReset, .scanTimer] (s.withSustain g) (releasedState s g) := by
    intro p hp
    cases p <;> simp [SamePart, releasedState] at hp ⊢
  exact (monitor.trans released).mono (by decide)

/-- Settles O31: the comparison finds the supply above recover, or leaves the generator as it is. -/
theorem releaseOfResetStartsTheTimers : Obligations.ReleaseOfResetStartsTheTimers := by
  intro s rest asserted low idle recover
  have command := exec_terminalResetRelease s rest asserted low
  by_cases above : recoverOf s.station.effective.pair < s.sustain.supply
  · rw [if_pos above] at command
    refine ⟨_, command, rfl, rfl, fun _ => rfl, fun below => absurd above (Nat.not_lt.mpr below),
      releasedState_onlyChanges s _ fun p hp => ?_⟩
    cases p <;> simp [SamePart] at hp ⊢
  · rw [if_neg above] at command
    exact ⟨_, command, rfl, rfl, fun above' => absurd above' above, fun _ => rfl,
      releasedState_onlyChanges s _ fun p _ => SamePart.refl s p⟩

end Sys2Proof.Machine
end

section
/-! PROOFS. SUPERVISE at its grant: the part that each function replaces, and AREA, LOCK, ROUTE and TIMING. -/

namespace Sys2Proof.Machine

/-- The parts that the effect of a SUPERVISE function changes (R85, R105, R106, R109, R110). -/
def superviseParts : Supervise → List Part
  | .take => [.takeover, .localChan, .flags]
  | .give => [.takeover, .flags]
  | .area _ _ _ _ => [.area]
  | .lock _ => [.lockSet]
  | .route _ => [.route]
  | .timing _ _ => [.pendingTiming]

theorem superviseEffect_onlyChanges (f : Supervise) (s : State) :
    OnlyChanges (superviseParts f) s (superviseEffect f s) := by
  intro p hp
  cases f with
  | take =>
    show SamePart s (takeEffect s) p
    unfold takeEffect
    split <;> cases p <;> simp [SamePart, superviseParts] at hp ⊢
  | give =>
    show SamePart s (giveEffect s) p
    unfold giveEffect
    split <;> cases p <;> simp [SamePart, superviseParts] at hp ⊢
  | area | lock | route | timing =>
    cases p <;>
      simp [SamePart, superviseParts, superviseEffect, areaEffect, lockEffect, routeEffect, timingEffect] at hp ⊢

/-- SUPERVISE as a command, at its grant (R102). -/
theorem exec_supervise_granted (s : State) (f : Supervise) (granted : Granted .lineCh s (.supervise f)) :
    exec (orderCommand .lineCh (orderKind (.supervise f))) s =
      .next (closeEvent (superviseUnit .lineCh f (grantBegun .lineCh s))) := by
  have order : ((beginEvent s).chan .lineCh).order = some (.supervise f) := by rw [beginEvent_chan, granted.2]
  have grant : grantTo .lineCh (beginEvent s) = superviseUnit .lineCh f (grantBegun .lineCh s) := by
    rw [grantTo_of_unit .lineCh _ (by simp only [unitReady, order])]
    simp only [carryUnit, State.withEngine_chan, order]
    rfl
  rw [exec_orderCommand .lineCh s _ granted, grant]

/-- A SUPERVISE that is carried out completes its order, changes what its function does, and raises no flag of its own but
those of its function (R102). -/
theorem superviseUnit_closed (f : Supervise) (s : State) :
    let t := closeEvent (superviseUnit .lineCh f (grantBegun .lineCh s))
    t.lineChan = { s.lineChan with order := none } ∧
      OnlyChanges ([.arbiter] ++ superviseParts f ++ [.lineChan] ++ [.flags]) s t ∧
      (.flags ∉ superviseParts f → FlagsAfter [] s t) := by
  have effect := superviseEffect_onlyChanges f (grantBegun .lineCh s)
  have line : (superviseEffect f (grantBegun .lineCh s)).lineChan = s.lineChan :=
    Eq.trans (effect .lineChan (by cases f <;> simp [superviseParts])) (grantBegun_chan .lineCh .lineCh s)
  refine ⟨?_, ?_, fun silent => (FlagsAfter.of_flags ?_).closed⟩
  · simp [superviseUnit, completeOrder, State.chan, line]
  · exact (((onlyChanges_grantBegun .lineCh s).trans effect).trans (onlyChanges_withChan .lineCh _ _)).trans
      (onlyChanges_closeEvent _)
  · have flags := effect .flags silent
    simp only [SamePart, grantBegun_frame] at flags
    simpa [superviseUnit, completeOrder] using flags

/-- The bounds of the rectangle of two corners (section 0.6). -/
theorem rectOf_bounds (x1 y1 x2 y2 : Coord) :
    (rectOf x1 y1 x2 y2).xLo.val = min x1.val x2.val ∧ (rectOf x1 y1 x2 y2).yLo.val = min y1.val y2.val ∧
      (rectOf x1 y1 x2 y2).xHi.val = max x1.val x2.val ∧ (rectOf x1 y1 x2 y2).yHi.val = max y1.val y2.val := by
  simp only [rectOf, apply_ite Fin.val, Fin.le_def, Nat.min_def, Nat.max_def, and_self]

theorem clampPeriod_eq (n : Nat) : clampPeriod n = if n < 40 then 40 else if 160 < n then 160 else n := by
  unfold clampPeriod
  split
  · omega
  · split <;> omega

theorem clampDead_eq (n : Nat) : clampDead n = if n < 1 then 1 else if 16 < n then 16 else n := by
  unfold clampDead
  split
  · omega
  · split <;> omega

/-- Settles O44: each function is carried out at its grant, and replaces the part it names. -/
theorem superviseReplacesItsState : Obligations.SuperviseReplacesItsState := by
  intro s
  refine ⟨fun x1 y1 x2 y2 granted => ?_, fun sets granted => ?_, fun r granted => ?_, fun period dead granted => ?_⟩
  · obtain ⟨order, frame, flags⟩ := superviseUnit_closed (.area x1 y1 x2 y2) s
    obtain ⟨xLo, yLo, xHi, yHi⟩ := rectOf_bounds x1 y1 x2 y2
    refine ⟨_, exec_supervise_granted s _ granted, order, ?_, ?_, ?_, ?_, frame.mono (by simp [superviseParts]),
      flags (by simp [superviseParts])⟩ <;> simpa [superviseUnit, superviseEffect, areaEffect]
  · obtain ⟨order, frame, flags⟩ := superviseUnit_closed (.lock sets) s
    exact ⟨_, exec_supervise_granted s _ granted, order, by simp [superviseUnit, superviseEffect, lockEffect],
      frame.mono (by simp [superviseParts]), flags (by simp [superviseParts])⟩
  · obtain ⟨order, frame, flags⟩ := superviseUnit_closed (.route r) s
    exact ⟨_, exec_supervise_granted s _ granted, order, by simp [superviseUnit, superviseEffect, routeEffect],
      frame.mono (by simp [superviseParts]), flags (by simp [superviseParts])⟩
  · obtain ⟨order, frame, flags⟩ := superviseUnit_closed (.timing period dead) s
    refine ⟨_, exec_supervise_granted s _ granted, order, ?_, ?_, frame.mono (by simp [superviseParts]),
      flags (by simp [superviseParts])⟩
    · simp [superviseUnit, superviseEffect, timingEffect, clampPeriod_eq]
    · simp [superviseUnit, superviseEffect, timingEffect, clampDead_eq]

end Sys2Proof.Machine
end

section
/-! PROOFS. The loss of the panel by droop or panel-off: what it leaves, what it keeps, and the supply monitor and the cycle
starts that bring it about. -/

namespace Sys2Proof.Machine

/-! ### Flags and drawing seen from the state before -/

theorem FlagsAfter.of_before {raised : List EventFlag} {s u t : State} (h : FlagsAfter raised u t)
    (same : u.port.flags = s.port.flags) : FlagsAfter raised s t := by
  simpa only [FlagsAfter, flagSet, same] using h

/-- A flag that is raised is set after, and no other is changed (R132). -/
theorem FlagsAfter.of_raised {f : EventFlag} {s t : State} (h : t.port.flags = (raiseFlag f s).port.flags) :
    FlagsAfter [f] s t := by
  intro g
  have raised : flagSet g t = (flagSet g s || decide (g = f)) := by
    rw [← flagSet_raiseFlag, flagSet, flagSet, h]
  rw [raised]
  exact ⟨fun _ => by simp, fun set => by simp [set]⟩

theorem ShadowDrawn.of_before {s u t : State} {h : Held} (drawn : ShadowDrawn u t h)
    (shadow : u.engine.shadow = s.engine.shadow) (area : u.supervision.area = s.supervision.area)
    (chan : u.chan h.channel = s.chan h.channel) : ShadowDrawn s t h := by
  simpa only [ShadowDrawn, shadowCell, shadowAt, mayDraw, spanMode, shadow, area, chan] using drawn

/-! ### The loss -/

/-- The state at a loss, before a held span renders (R68, R83, R95). -/
def darkened (s : State) : State := raiseFlag .panel (enterDark s)

theorem lose_of_running (s : State) (running : s.sustain.panelState ≠ .dark) : lose s = renderHeld (darkened s) :=
  if_neg running

theorem renderHeld_of_none (s : State) (free : s.engine.held = none) : renderHeld s = s := by
  simp only [renderHeld, free]

theorem renderHeld_of_some (s : State) (h : Held) (held : s.engine.held = some h) : renderHeld s = renderSpan h s := by
  simp only [renderHeld, held]

theorem darkened_blank (s : State) : (darkened s).tracker.stale = allBlank := by
  simp [darkened, enterDark, lostTracker]

/-- At a loss every row is stale, so a held span renders into the shadow alone (R9, R95). -/
theorem isStale_darkened (s : State) (y : Coord) : isStale (darkened s) y = true := by
  rw [isStale, staleAt_of_allBlank _ (darkened_blank s)]
  rfl

theorem darkened_onlyChanges (s : State) :
    OnlyChanges [.items, .panelState, .cycle, .stale, .scanner, .panel, .flags] s (darkened s) := by
  intro p hp
  cases p <;> simp [SamePart, darkened, enterDark] at hp ⊢

theorem renderHeld_onlyChanges (s : State) :
    OnlyChanges [.shadow, .held, .items, .turn, .lineChan, .localChan] s (renderHeld s) := by
  cases held : s.engine.held with
  | none =>
    rw [renderHeld_of_none s held]
    exact fun p _ => SamePart.refl s p
  | some h =>
    rw [renderHeld_of_some s h held]
    exact (renderSpan_onlyChanges h s).mono (by cases h.channel <;> decide)

/-- A held span that renders at a loss hands the queue nothing, which stays as the loss left it (R9, R68). -/
theorem renderHeld_darkened_strikes (s : State) (wf : TableWf 0 16384 s.engine.shadow) :
    (renderHeld (darkened s)).strikes = { s.strikes with items := [] } := by
  cases held : s.engine.held with
  | none =>
    rw [renderHeld_of_none (darkened s) held]
    rfl
  | some h =>
    obtain ⟨-, strikes⟩ := renderSpan_spanDrawn h (darkened s) wf
    rw [renderHeld_of_some (darkened s) h held, strikes, if_pos (.inr (isStale_darkened s _))]
    rfl

/-- What a loss leaves of a panel that is not DARK (R9, R68, R83, R95). -/
theorem lose_lost (s : State) (wf : TableWf 0 16384 s.engine.shadow) (running : s.sustain.panelState ≠ .dark) :
    Lost s (lose s) := by
  have strikes := renderHeld_darkened_strikes s wf
  have stale : (renderHeld (darkened s)).tracker.stale = allBlank := by simp [darkened_blank]
  rw [lose_of_running s running]
  refine ⟨by simp [darkened, enterDark], by simp [darkened, enterDark], strikes, staleAt_of_allBlank _ stale,
    by simp [darkened, enterDark, lostTracker], ?_, fun free => ?_, fun h held => ?_⟩
  · cases held : s.engine.held with
    | none => rwa [renderHeld_of_none (darkened s) held]
    | some h => rw [renderHeld_of_some (darkened s) h held, renderSpan_engine]
  · rw [renderHeld_of_none (darkened s) free]
    exact ⟨rfl, rfl, rfl⟩
  · have chan : (darkened s).chan h.channel = s.chan h.channel := by cases h.channel <;> rfl
    obtain ⟨drawn, -⟩ := renderSpan_spanDrawn h (darkened s) wf
    rw [renderHeld_of_some (darkened s) h held, (renderSpan_chan h _).1, chan]
    exact ⟨drawn.of_before rfl rfl chan, rfl⟩

theorem lose_sustain (s : State) (running : s.sustain.panelState ≠ .dark) :
    (lose s).sustain = { s.sustain with panelState := .dark, cycle := none } := by
  simp [lose_of_running s running, darkened, enterDark]

/-- The parts that a loss changes. -/
def lossParts : List Part :=
  [.shadow, .held, .lineChan, .localChan, .items, .panelState, .cycle, .stale, .scanner, .panel, .flags]

theorem lose_onlyChanges (s : State) (wf : TableWf 0 16384 s.engine.shadow) (running : s.sustain.panelState ≠ .dark) :
    OnlyChanges lossParts s (lose s) := by
  have turn : SamePart s (lose s) .turn := by
    rw [SamePart, lose_of_running s running, renderHeld_darkened_strikes s wf]
  have frame := (darkened_onlyChanges s).trans (renderHeld_onlyChanges (darkened s))
  rw [← lose_of_running s running] at frame
  exact (frame.mono (qs := .turn :: lossParts) (by decide)).drop turn

/-- A loss raises PANEL (R83, R87). -/
theorem lose_flags (s : State) (running : s.sustain.panelState ≠ .dark) : FlagsAfter [.panel] s (lose s) := by
  refine FlagsAfter.of_raised ?_
  simp only [lose_of_running s running, renderHeld_frame]
  rfl

theorem Lost.of_before {s u t : State} (lost : Lost u t) (engine : u.engine = s.engine) (strikes : u.strikes = s.strikes)
    (line : u.lineChan = s.lineChan) (loc : u.localChan = s.localChan) (area : u.supervision = s.supervision) :
    Lost s t := by
  have chan (ch : Channel) : u.chan ch = s.chan ch := by cases ch <;> assumption
  obtain ⟨dark, cycle, queue, stale, scanner, held, free, waiting⟩ := lost
  rw [engine, line, loc] at free
  refine ⟨dark, cycle, strikes ▸ queue, stale, scanner, held, free, fun h here => ?_⟩
  obtain ⟨drawn, order⟩ := waiting h (engine ▸ here)
  exact ⟨drawn.of_before (by rw [engine]) (by rw [area]) (chan _), order.trans (by rw [chan])⟩

/-- What a loss leaves stands when the event closes. -/
theorem Lost.closed {s t : State} (lost : Lost s t) : Lost s (closeEvent t) := by
  simpa [Lost, ShadowDrawn, shadowCell, shadowAt, staleAt, closeEvent_chan] using lost

/-- An event from the state `s` that is a loss, the generator being `g` at it. -/
theorem loss_closed (s : State) (e : Option Before) (g : Sustain) (wf : TableWf 0 16384 s.engine.shadow)
    (running : g.panelState ≠ .dark) :
    let u := (s.withEvent e).withSustain g
    let t := closeEvent (lose u)
    Lost s t ∧ FlagsAfter [.panel] s t ∧ t.sustain = { g with panelState := .dark, cycle := none } ∧
      OnlyChanges lossParts u t := by
  intro u t
  have lost : Lost s (lose u) := (lose_lost u wf running).of_before rfl rfl rfl rfl rfl
  refine ⟨lost.closed, ((lose_flags u running).of_before rfl).closed, ?_, ?_⟩
  · exact Eq.trans (by simp [t]) (lose_sustain u running)
  · exact ((lose_onlyChanges u wf running).trans (onlyChanges_closeEvent _)).mono (by decide)

/-! ### The supply monitor -/

/-- An event at rest that replaces the sustain generator and keeps the panel state raises no flag. -/
theorem atEvent_withSustain (f : State → State) (s : State) (g : Sustain) (rest : AtRest s)
    (effect : f (s.withEvent (some (observe s))) = (s.withEvent (some (observe s))).withSustain g)
    (panel : g.panelState = s.sustain.panelState) : atEvent f s = s.withSustain g := by
  refine atEvent_of_quiet f s (s.withSustain g) rest effect rfl rfl ?_
  simp only [observe, isSettled, State.withSustain_sustain, panel]
  rfl

/-- Either supply command moves the supply and makes both comparisons (R75, log entry 6). -/
theorem exec_supply (s : State) (v : Nat) (c : Instr) (command : c = .supplyDroop v ∨ c = .supplyRecover v) :
    exec c s = .next (atEvent (supplyMoves v) s) := by
  rcases command with rfl | rfl <;> rfl

section

variable {s : State} {v : Nat} (released : s.terminalReset = false)
include released

/-- A supply that moves below droop (R76). -/
theorem supplyMoves_of_below (below : v < droopOf s.station.effective.pair) :
    supplyMoves v s = supplyBelow (s.withSustain { s.sustain with supply := v }) := by
  simp [supplyMoves, compareSupply, released, below]

/-- A supply that moves above recover (R76). -/
theorem supplyMoves_of_above (above : recoverOf s.station.effective.pair < v) :
    supplyMoves v s = supplyAbove (s.withSustain { s.sustain with supply := v }) := by
  have order := droopOf_lt_recoverOf s.station.effective.pair
  have notBelow : ¬v < droopOf s.station.effective.pair := by omega
  simp [supplyMoves, compareSupply, released, notBelow, above]

/-- A supply that moves to a level neither below droop nor above recover (R75). -/
theorem supplyMoves_of_between (low : droopOf s.station.effective.pair ≤ v)
    (high : v ≤ recoverOf s.station.effective.pair) :
    supplyMoves v s = s.withSustain { s.sustain with supply := v } := by
  simp [supplyMoves, compareSupply, released, Nat.not_lt.mpr low, Nat.not_lt.mpr high]

end

theorem supplyBelow_of_low (s : State) (low : s.sustain.supplyState = .low) : supplyBelow s = s := by
  simp only [supplyBelow, low]

theorem supplyBelow_of_settling (s : State) (settling : s.sustain.supplyState = .settling) :
    supplyBelow s = s.withSustain { s.sustain with supplyState := .low, settle := none } := by
  simp only [supplyBelow, settling]

theorem supplyBelow_of_good (s : State) (good : s.sustain.supplyState = .good) :
    supplyBelow s = lose (s.withSustain { s.sustain with supplyState := .low }) := by
  simp only [supplyBelow, good]

theorem supplyAbove_of_low (s : State) (low : s.sustain.supplyState = .low) :
    supplyAbove s = s.withSustain { s.sustain with supplyState := .settling, settle := some 80000 } := by
  simp only [supplyAbove, low]

theorem supplyAbove_of_not_low (s : State) (high : s.sustain.supplyState ≠ .low) : supplyAbove s = s := by
  cases state : s.sustain.supplyState with
  | low => exact absurd state high
  | settling | good => simp only [supplyAbove, state]

/-- A DARK panel has nothing to lose (R83). -/
theorem lose_of_dark (s : State) (dark : s.sustain.panelState = .dark) : lose s = s := if_pos dark

/-- Settles O34: the level is compared with both thresholds, and each side meets each state of the monitor. -/
theorem supplyMonitorChangesState : Obligations.SupplyMonitorChangesState := by
  intro s v c wf rest released command droop recover g
  obtain ⟨shadow, -⟩ := wf
  let b := s.withEvent (some (observe s))
  have quiet (g' : Sustain) (effect : supplyMoves v b = b.withSustain g') (panel : g'.panelState = g.panelState) :
      exec c s = .next (s.withSustain g') := by
    rw [exec_supply s v c command, atEvent_withSustain _ s g' rest effect panel]
  have below (low : v < droop) := supplyMoves_of_below (s := b) released low
  have falls (low : v < droop) (good : g.supplyState = .good) :
      supplyMoves v b = lose (b.withSustain { g with supply := v, supplyState := .low }) :=
    (below low).trans (supplyBelow_of_good _ good)
  have above (high : recover < v) := supplyMoves_of_above (s := b) released high
  refine ⟨fun low settling => quiet _ ((below low).trans (supplyBelow_of_settling _ settling)) rfl,
    fun low good dark => quiet _ ?_ rfl, fun low good running => ?_,
    fun high low => quiet _ ((above high).trans (supplyAbove_of_low _ low)) rfl, fun other => quiet _ ?_ rfl⟩
  · exact (falls low good).trans (lose_of_dark (b.withSustain _) dark)
  · obtain ⟨lost, flags, generator, frame⟩ :=
      loss_closed s (some (observe s)) { g with supply := v, supplyState := .low } shadow running
    have moved : OnlyChanges [.supply] s (b.withSustain { g with supply := v, supplyState := .low }) := by
      intro p hp
      cases p <;> simp [SamePart, b, g] at hp ⊢
    have answer := atEvent_of_atRest (supplyMoves v) s rest
    rw [falls low good] at answer
    refine ⟨_, (exec_supply s v c command).trans (congrArg Host.Outcome.next answer), ?_⟩
    exact ⟨by rw [generator], by rw [generator], by rw [generator], lost, flags, (moved.trans frame).mono (by decide)⟩
  · rcases other with ⟨low, high⟩ | ⟨low, monitor⟩ | ⟨high, monitor⟩
    · exact supplyMoves_of_between (s := b) released low high
    · exact (below low).trans (supplyBelow_of_low _ monitor)
    · exact (above high).trans (supplyAbove_of_not_low _ monitor)

/-! ### Cycle starts -/

/-- A cycle start with the enable off is a loss (R80). -/
theorem cycleStarts_of_off (s : State) (running : s.sustain.panelState ≠ .dark) (off : s.sustain.enable = false) :
    cycleStarts s = lose s := by
  rw [cycleStarts, if_neg running, if_pos off]

/-- A cycle start with the enable on begins the next cycle (R80). -/
theorem cycleStarts_of_on (s : State) (running : s.sustain.panelState ≠ .dark) (on : s.sustain.enable = true) :
    cycleStarts s =
      s.withSustain
        { s.sustain with
          effectiveTiming := s.sustain.pendingTiming
          divider := nextDivider (windowDivider s) s.sustain.divider
          cycle := some { place := 0, drive := none } } := by
  rw [cycleStarts, if_neg running, if_neg (by simp [on])]

/-- Settles O36: the enable decides between the loss and the next cycle. -/
theorem cycleStartStopsOrGoesOn : Obligations.CycleStartStopsOrGoesOn := by
  intro s wf rest running
  obtain ⟨shadow, -⟩ := wf
  refine ⟨fun off => ?_, fun on => ?_⟩
  · have answer := atEvent_of_atRest cycleStarts s rest
    rw [cycleStarts_of_off (s.withEvent (some (observe s))) running off] at answer
    obtain ⟨lost, flags, -, frame⟩ := loss_closed s (some (observe s)) s.sustain shadow running
    exact ⟨_, congrArg Host.Outcome.next answer, lost, flags, (onlyChanges_withEvent s _).trans frame⟩
  · have effect := cycleStarts_of_on (s.withEvent (some (observe s))) running on
    refine ⟨_, congrArg Host.Outcome.next (atEvent_withSustain cycleStarts s _ rest effect rfl), rfl, rfl, rfl,
      fun p hp => ?_⟩
    cases p <;> simp [SamePart] at hp ⊢

end Sys2Proof.Machine
end

section
/-! PROOFS. The sustain start: what it leaves, and the two events that bring it about. -/

namespace Sys2Proof.Machine

/-- The generator is ready to start: supply GOOD, enable on, panel DARK (R78). -/
def readyToStart (g : Sustain) : Prop := g.supplyState = .good ∧ g.enable = true ∧ g.panelState = .dark

theorem startWhenReady_of_ready (s : State) (ready : readyToStart s.sustain) : startWhenReady s = startSustain s :=
  if_pos ready

theorem startWhenReady_of_not_ready (s : State) (notReady : ¬readyToStart s.sustain) : startWhenReady s = s :=
  if_neg notReady

theorem startSustain_sustain (s : State) :
    (startSustain s).sustain =
      { s.sustain with
        panelState := .priming, effectiveTiming := s.sustain.pendingTiming, divider := 0
        cycle := some { place := 0, drive := none } } := rfl

/-- A sustain start raises PANEL (R87). -/
theorem startSustain_flags (s : State) : FlagsAfter [.panel] s (startSustain s) := FlagsAfter.of_raised rfl

theorem startSustain_onlyChanges (s : State) :
    OnlyChanges [.panelState, .effectiveTiming, .divider, .cycle, .panel, .flags] s (startSustain s) := by
  intro p hp
  cases p <;> simp [SamePart, startSustain] at hp ⊢

/-- From `s` to `t` the sustain has started, at an event of the supply monitor or of the enable (R76, R77, R78, R87). -/
def SustainBegun (s t : State) : Prop :=
  Started s t ∧ FlagsAfter [.panel] s t ∧
    OnlyChanges [.supply, .enable, .panelState, .effectiveTiming, .divider, .cycle, .panel, .flags] s t

/-- What an event at rest leaves that gives the generator `g`, new in `parts` alone, and lets the sustain start (R78). -/
theorem atEvent_startWhenReady (f : State → State) (s : State) (g : Sustain) (parts : List Part) (rest : AtRest s)
    (effect : f (s.withEvent (some (observe s))) = startWhenReady ((s.withEvent (some (observe s))).withSustain g))
    (among : ∀ p ∈ parts, p ∈ [.supply, .enable]) (given : OnlyChanges parts s (s.withSustain g)) :
    let t := atEvent f s
    t.sustain.supply = g.supply ∧ t.sustain.supplyState = g.supplyState ∧ t.sustain.settle = g.settle ∧
      t.sustain.enable = g.enable ∧ (readyToStart g → SustainBegun s t) ∧ (¬readyToStart g → OnlyChanges parts s t) := by
  intro t
  by_cases ready : readyToStart g
  · have started : t = closeEvent (startSustain ((s.withEvent (some (observe s))).withSustain g)) := by
      rw [← startWhenReady_of_ready _ ready, ← effect]
      exact atEvent_of_atRest f s rest
    have generator : t.sustain = (startSustain (s.withSustain g)).sustain := by
      rw [started]
      simp [startSustain_sustain]
    have pending : g.pendingTiming = s.sustain.pendingTiming :=
      given .pendingTiming fun listed => by simpa using among _ listed
    have frame := ((given.mono among).trans (onlyChanges_withEvent (s.withSustain g) (some (observe s)))).trans
      (startSustain_onlyChanges _)
    rw [generator, startSustain_sustain]
    refine ⟨rfl, rfl, rfl, rfl, fun _ => ⟨?_, ?_, ?_⟩, fun notReady => absurd ready notReady⟩
    · rw [Started, generator, startSustain_sustain, ← pending]
      exact ⟨rfl, rfl, rfl, rfl⟩
    · rw [started]
      exact ((startSustain_flags _).of_before rfl).closed
    · rw [started]
      exact (frame.trans (onlyChanges_closeEvent _)).mono (by decide)
  · have panel : g.panelState = s.sustain.panelState :=
      given .panelState fun listed => by simpa using among _ listed
    have kept : t = s.withSustain g :=
      atEvent_withSustain f s g rest (effect.trans (startWhenReady_of_not_ready _ ready)) panel
    rw [kept]
    exact ⟨rfl, rfl, rfl, rfl, fun ready' => absurd ready' ready, fun _ => given⟩

/-- Settles O35: both events replace one part of the generator and then let the sustain start. -/
theorem sustainStarts : Obligations.SustainStarts := by
  intro s a rest starts
  refine ⟨fun running => ?_, fun released => ?_⟩
  · have effect : settleExpires (s.withEvent (some (observe s))) = startWhenReady
        ((s.withEvent (some (observe s))).withSustain { s.sustain with supplyState := .good, settle := none }) :=
      if_pos running
    obtain ⟨supply, good, settle, enable, begun, kept⟩ :=
      atEvent_startWhenReady settleExpires s _ [.supply] rest effect (by decide) fun p hp => by
        cases p <;> simp [SamePart] at hp ⊢
    refine ⟨_, rfl, supply, good, settle, enable, fun ⟨on, dark⟩ => begun ⟨rfl, on, dark⟩,
      fun notReady => kept fun ⟨_, on, dark⟩ => ?_⟩
    rcases notReady with off | running
    · exact absurd (on.symm.trans off) (by decide)
    · exact running dark
  · have effect : whenTaken panelOn (s.withEvent (some (observe s))) = startWhenReady
        ((s.withEvent (some (observe s))).withSustain { s.sustain with enable := true }) :=
      whenTaken_of_released panelOn (s.withEvent (some (observe s))) released
    obtain ⟨supply, state, settle, enable, begun, kept⟩ :=
      atEvent_startWhenReady (whenTaken panelOn) s _ [.enable] rest effect (by decide) fun p hp => by
        cases p <;> simp [SamePart] at hp ⊢
    refine ⟨_, rfl, enable, ⟨supply, state, settle⟩, fun ⟨good, dark⟩ => begun ⟨good, rfl, dark⟩,
      fun notReady => kept fun ⟨good, _, dark⟩ => ?_⟩
    rcases notReady with notGood | running
    · exact notGood good
    · exact running dark

end Sys2Proof.Machine
end

section
/-! PROOFS. The row that a take chooses: the lowest stale row from the sweep row up, else the lowest of all. -/

namespace Sys2Proof.Machine

/-- A take chooses the lowest row listed from the sweep row up, or, where every row listed lies below the sweep row, the first
row listed (R92). -/
theorem rowToTake_cases (stale : List (Nat × StaleKind)) (sweep : Nat) (wf : SparseWf .coherent stale) :
    (∃ p, rowToTake stale sweep = some p ∧ sweep ≤ p.1 ∧ ∀ q ∈ stale, sweep ≤ q.1 → p.1 ≤ q.1) ∨
      ((∀ q ∈ stale, q.1 < sweep) ∧ rowToTake stale sweep = stale.head?) := by
  cases found : stale.find? fun p => sweep ≤ p.1 with
  | none =>
    refine .inr ⟨fun q listed => ?_, by rw [rowToTake, found]⟩
    simpa using List.find?_eq_none.mp found q listed
  | some p =>
    obtain ⟨fits, before, behind, split, skipped⟩ := List.find?_eq_some_iff_append.mp found
    refine .inl ⟨p, by rw [rowToTake, found], by simpa using fits, fun q listed up => ?_⟩
    have rising := wf.1
    rw [split] at listed rising
    obtain ⟨-, later, -⟩ := List.pairwise_append.mp rising
    rcases List.mem_append.mp listed with earlier | listed
    · have := skipped q earlier
      simp [up] at this
    · rcases List.mem_cons.mp listed with rfl | listed
      · exact Nat.le_refl _
      · exact Nat.le_of_lt ((List.pairwise_cons.mp later).1 q listed)

/-- The first row listed is the lowest. -/
theorem head_lowest (stale : List (Nat × StaleKind)) (wf : SparseWf .coherent stale) (p : Nat × StaleKind)
    (first : stale.head? = some p) : ∀ q ∈ stale, p.1 ≤ q.1 := by
  obtain ⟨rest, rfl⟩ := List.head?_eq_some_iff.mp first
  intro q listed
  rcases List.mem_cons.mp listed with rfl | listed
  · exact Nat.le_refl _
  · exact Nat.le_of_lt ((List.pairwise_cons.mp wf.1).1 q listed)

/-- A row that is chosen is listed with its kind, which is BLANK or UNKNOWN (R88). -/
theorem rowToTake_sound (stale : List (Nat × StaleKind)) (sweep row : Nat) (kind : StaleKind)
    (wf : TableWf .coherent 512 stale) (found : rowToTake stale sweep = some (row, kind)) :
    row < 512 ∧ sparseGet .coherent stale row = kind ∧ kind ≠ .coherent := by
  have listed := rowToTake_mem stale sweep _ found
  exact ⟨wf.2 _ listed, sparseGet_of_mem _ stale _ wf.1 listed, wf.1.2 _ listed⟩

/-- Settles O39: a COHERENT row is one that is not listed, and the rows are listed from the lowest up. -/
theorem takeChoosesTheLowestRow : Obligations.TakeChoosesTheLowestRow := by
  intro stale sweep wf
  have unlisted (r : Nat) (h : ∀ q ∈ stale, q.1 ≠ r) := sparseGet_of_not_mem StaleKind.coherent stale r h
  refine ⟨fun row kind found => ?_, fun nothing r => unlisted r ?_⟩
  · obtain ⟨bound, reads, notCoherent⟩ := rowToTake_sound stale sweep row kind wf found
    refine ⟨bound, reads, notCoherent, ?_⟩
    rcases rowToTake_cases stale sweep wf.1 with ⟨p, chosen, above, lowest⟩ | ⟨below, chosen⟩ <;> rw [found] at chosen
    · cases chosen
      refine ⟨fun _ r low high => unlisted r ?_, fun down => absurd down (Nat.not_lt.mpr above)⟩
      rintro q listed rfl
      exact absurd (lowest q listed low) (Nat.not_le.mpr high)
    · have first := head_lowest stale wf.1 _ chosen.symm
      have under : row < sweep := below (row, kind) (rowToTake_mem stale sweep _ found)
      refine ⟨fun up => absurd up (Nat.not_le.mpr under), fun _ r outside => unlisted r ?_⟩
      rintro q listed rfl
      rcases outside with low | high
      · exact absurd (first q listed) (Nat.not_le.mpr low)
      · exact absurd (below q listed) (Nat.not_lt.mpr high)
  · rcases rowToTake_cases stale sweep wf.1 with ⟨p, chosen, -⟩ | ⟨-, chosen⟩ <;> rw [nothing] at chosen
    · cases chosen
    · rw [List.head?_eq_none_iff.mp chosen.symm]
      exact fun _ listed => (nomatch listed)

end Sys2Proof.Machine
end

section
/-! PROOFS. The restore step: the items of a group, the scanner behind it, and the take at the end of a row. -/

namespace Sys2Proof.Machine

/-! ### A take -/

/-- A scanner with a current row takes no other (R92). -/
theorem takeRow_of_current (s : State) (cur : Current) (current : s.tracker.scanner.current = some cur) :
    takeRow s = s := by
  simp [takeRow, current]

theorem takeRow_onlyChanges (s : State) : OnlyChanges [.stale, .scanner] s (takeRow s) := by
  intro p hp
  cases p <;> simp [SamePart] at hp ⊢

theorem coord_val_of_lt (n : Nat) (h : n < 512) : (coord n).val = n := Nat.mod_eq_of_lt h

theorem rowToTake_nil (sweep : Nat) : rowToTake [] sweep = none := rfl

section

variable {s : State} (live : s.sustain.panelState = .live) (active : s.tracker.scanner.active = true)
  (free : s.tracker.scanner.current = none)
include live active free

/-- With no stale row left the scanner becomes IDLE (R92). -/
theorem takeRow_of_none (nothing : rowToTake s.tracker.stale s.tracker.scanner.sweep = none) :
    takeRow s = s.withTracker { s.tracker with scanner := { s.tracker.scanner with active := false } } := by
  simp only [takeRow, live, active, free, nothing, and_self, if_true]

/-- The row chosen becomes the current row, and COHERENT (R92). -/
theorem takeRow_of_some (row : Nat) (kind : StaleKind)
    (found : rowToTake s.tracker.stale s.tracker.scanner.sweep = some (row, kind)) :
    takeRow s =
      s.withTracker
        { stale := sparseSet .coherent s.tracker.stale row .coherent
          scanner := { s.tracker.scanner with current := some { row := coord row, kind := kind, next := 0 } } } := by
  simp only [takeRow, live, active, free, found, and_self, if_true]

end

/-! ### The step -/

/-- RESTORE_STEP is the restore step where it is due (R93). -/
theorem exec_restoreStep (s : State) (due : restoreDue s = true) :
    exec .restoreStep s = .next (closeEvent (restoreStep (beginEvent s))) := by
  simp only [exec, execRestoreStep, due, stepWhen_true, withinEvent]

/-- A restore step is due only while the scanner is ACTIVE (R65). -/
theorem active_of_restoreDue (s : State) (due : restoreDue s = true) : s.tracker.scanner.active = true := by
  simp only [restoreDue, scannerClaims, Bool.and_eq_true] at due
  obtain ⟨⟨⟨active, -⟩, -⟩, -⟩ := due
  exact active

/-- Of a BLANK row the lit cells are written (R93). -/
theorem restoreItems_of_blank (cur : Current) (lit : Cells) (items : List StrikeItem) (blank : cur.kind = .blank) :
    restoreItems cur lit items = handOver .write cur.row cur.next lit items := by
  simp [restoreItems, blank, handPair, handOver]

/-- Of an UNKNOWN row the dark cells are erased before the lit cells are written (R93). -/
theorem restoreItems_of_unknown (cur : Current) (lit : Cells) (items : List StrikeItem) (unknown : cur.kind ≠ .blank) :
    restoreItems cur lit items =
      handOver .write cur.row cur.next lit (handOver .erase cur.row cur.next (~~~lit) items) := by
  simp only [restoreItems, unknown, if_false, handPair]

/-- The state at a restore step, before the take at the end of its row. -/
def groupRestored (cur : Current) (s : State) : State :=
  (s.withStrikes
    { items := restoreItems cur (shadowAt s cur.row cur.next) s.strikes.items, turn := .scanner }).withTracker
      { s.tracker with scanner := afterStep s.tracker.scanner cur }

/-- A restore step hands over its group, and a take comes behind it (R93, R94). -/
theorem restoreStep_eq (s : State) (cur : Current) (current : s.tracker.scanner.current = some cur) :
    restoreStep s = takeRow (groupRestored cur s) :=
  restoreStep_some s cur current

/-- The scanner before the last group of a row goes on to the next (R93). -/
theorem afterStep_of_lt (c : Scanner) (cur : Current) (h : cur.next.val < 31) :
    afterStep c cur = { c with current := some { cur with next := group (cur.next.val + 1) } } :=
  if_neg (Nat.ne_of_lt h)

/-- The scanner behind the last group of a row has none, and its sweep row has moved on (R94). -/
theorem afterStep_of_last (c : Scanner) (cur : Current) (h : cur.next.val = 31) :
    afterStep c cur = { c with sweep := coord (cur.row.val + 1), current := none } :=
  if_pos h

/-- Within a row a restore step takes no other row (R93). -/
theorem restoreStep_of_lt (s : State) (cur : Current) (current : s.tracker.scanner.current = some cur)
    (h : cur.next.val < 31) : restoreStep s = groupRestored cur s := by
  have same : (groupRestored cur s).tracker.scanner.current = some { cur with next := group (cur.next.val + 1) } := by
    simp [groupRestored, afterStep_of_lt _ cur h]
  rw [restoreStep_eq s cur current, takeRow_of_current _ _ same]

theorem groupRestored_onlyChanges (cur : Current) (s : State) :
    OnlyChanges [.items, .turn, .scanner] s (groupRestored cur s) := by
  intro p hp
  cases p <;> simp [SamePart, groupRestored] at hp ⊢

theorem restoreStep_onlyChanges (s : State) (cur : Current) (current : s.tracker.scanner.current = some cur) :
    OnlyChanges [.items, .turn, .stale, .scanner] s (restoreStep s) := by
  rw [restoreStep_eq s cur current]
  exact ((groupRestored_onlyChanges cur s).trans (takeRow_onlyChanges _)).mono (by decide)

/-- What the end of a row leaves of the tracker: the scanner IDLE, or the row that the next take chooses (R92, R94). -/
theorem restoreStep_last (s : State) (cur : Current) (wf : TableWf .coherent 512 s.tracker.stale)
    (live : s.sustain.panelState = .live) (active : s.tracker.scanner.active = true)
    (current : s.tracker.scanner.current = some cur) (last : cur.next.val = 31) :
    let sweep := coord (cur.row.val + 1)
    let t := restoreStep s
    t.tracker.scanner.sweep = sweep ∧
      (s.tracker.stale = [] → t.tracker.scanner.active = false ∧ t.tracker.scanner.current = none ∧
        t.tracker.stale = []) ∧
      (∀ row kind, rowToTake s.tracker.stale sweep.val = some (row, kind) →
        t.tracker.scanner.active = true ∧
        t.tracker.scanner.current = some { row := coord row, kind := kind, next := 0 } ∧
        ∀ y, staleAt t y = if y.val = row then .coherent else staleAt s y) := by
  intro sweep t
  have scanner : (groupRestored cur s).tracker.scanner = { s.tracker.scanner with sweep := sweep, current := none } :=
    afterStep_of_last s.tracker.scanner cur last
  have live' : (groupRestored cur s).sustain.panelState = .live := live
  have active' : (groupRestored cur s).tracker.scanner.active = true := by rw [scanner]; exact active
  have free' : (groupRestored cur s).tracker.scanner.current = none := by rw [scanner]
  have step : t = takeRow (groupRestored cur s) := restoreStep_eq s cur current
  have place : (groupRestored cur s).tracker.scanner.sweep = sweep := by rw [scanner]
  cases found : rowToTake s.tracker.stale sweep.val with
  | none =>
    have taken := takeRow_of_none live' active' free' (by rw [place]; exact found)
    rw [step, taken]
    exact ⟨place, fun empty => ⟨rfl, free', empty⟩, fun _ _ other => (nomatch other)⟩
  | some p =>
    have taken := takeRow_of_some live' active' free' p.1 p.2 (by rw [place]; exact found)
    rw [step, taken]
    refine ⟨place, fun empty => ?_, fun row kind chosen => ?_⟩
    · rw [empty, rowToTake_nil] at found
      cases found
    · cases chosen
      exact ⟨active', rfl, fun y => sparseGet_set _ _ _ _ _ wf.1⟩

/-- Settles O38: the items are those of the row's kind, and the tracker is that of the next group or of the next take. -/
theorem restoreStepHandsOverItsGroup : Obligations.RestoreStepHandsOverItsGroup := by
  intro s cur wf live due current lit sweep
  obtain ⟨-, -, -, stale, -⟩ := wf
  have tracker : (beginEvent s).tracker = s.tracker := by simp
  have current' : (beginEvent s).tracker.scanner.current = some cur := by rw [tracker, current]
  have step := restoreStep_eq (beginEvent s) cur current'
  have items : (restoreStep (beginEvent s)).strikes.items = restoreItems cur lit s.strikes.items := by
    simp [step, groupRestored, (SameDrawing.beginEvent .lineCh s).shadowAt, lit]
  have frame := ((onlyChanges_beginEvent s).trans (restoreStep_onlyChanges _ cur current')).trans
    (onlyChanges_closeEvent _)
  refine ⟨_, exec_restoreStep s due, by simp [step, groupRestored], fun blank => ?_, fun unknown => ?_, fun inside => ?_,
    fun last => ?_, frame, (FlagsAfter.of_flags (by simp)).closed⟩
  · rw [← restoreItems_of_blank cur _ _ blank, ← items]
    simp
  · rw [← restoreItems_of_unknown cur _ _ unknown, ← items]
    simp
  · simp [restoreStep_of_lt _ cur current' inside, groupRestored, afterStep_of_lt _ cur inside]
  · have ended := restoreStep_last (beginEvent s) cur (tracker ▸ stale) (by simpa using live)
      (tracker ▸ active_of_restoreDue s due) current' last
    simpa [staleAt] using ended

end Sys2Proof.Machine
end

section
/-! PROOFS. REPAINT at its grant: the stale-row table that it marks, and the scanner that it sets going. -/

namespace Sys2Proof.Machine

/-! ### The table -/

/-- The kind of a row after a REPAINT, when it is not the current row: a COHERENT row is UNKNOWN (R96). -/
def markedKind (s : State) (y : Coord) : StaleKind := if staleAt s y = .coherent then .unknown else staleAt s y

theorem markedKind_ne (s : State) (y : Coord) : markedKind s y ≠ .coherent := by
  unfold markedKind
  split
  · exact StaleKind.noConfusion
  · assumption

/-- The state that a REPAINT of a LIVE panel marks, before the scanner becomes ACTIVE (R96, R97). -/
def repainted (s : State) : State :=
  s.withTracker
    { stale := repaintedTable s.tracker
      scanner :=
        { s.tracker.scanner with
          current := s.tracker.scanner.current.map fun c => { c with kind := .unknown } } }

theorem repainted_table (s : State) : (repainted s).tracker.stale = repaintedTable s.tracker := by
  rw [repainted, State.withTracker_tracker]

/-- Every row but a COHERENT current one is marked (R96). -/
theorem staleAt_repainted (s : State) (y : Coord) :
    staleAt (repainted s) y =
      if staleAt s y = .coherent ∧ (s.tracker.scanner.current.map Current.row) = some y then .coherent
      else markedKind s y := by
  have here : (s.tracker.scanner.current.map fun c => c.row.val) = some y.val ↔
      s.tracker.scanner.current.map Current.row = some y := by
    cases s.tracker.scanner.current <;> simp [Fin.ext_iff]
  rw [staleAt, repainted_table, repaintedTable, sparseGet_table, if_pos y.isLt]
  simp only [here, markedKind, staleAt]
  split <;> simp [*]

/-- With no current row every row is marked. -/
theorem staleAt_repainted_of_none (s : State) (free : s.tracker.scanner.current = none) (y : Coord) :
    staleAt (repainted s) y = markedKind s y := by
  simp [staleAt_repainted, free]

/-- A COHERENT current row stays so, and every other row is marked. -/
theorem staleAt_repainted_of_some (s : State) (cur : Current) (current : s.tracker.scanner.current = some cur)
    (coherent : staleAt s cur.row = .coherent) (y : Coord) :
    staleAt (repainted s) y = if y = cur.row then .coherent else markedKind s y := by
  rw [staleAt_repainted, current]
  by_cases here : y = cur.row
  · simp [here, coherent]
  · simp [here, Ne.symm here]

/-- A REPAINT leaves some row stale, for the current row is one of 512. -/
theorem repainted_stale (s : State) : (repainted s).tracker.stale ≠ [] := by
  intro empty
  have coherent (y : Coord) : staleAt (repainted s) y = .coherent := by rw [staleAt, empty, sparseGet]
  have current (y : Coord) : s.tracker.scanner.current.map Current.row = some y := by
    refine Classical.byContradiction fun other => ?_
    have marked := coherent y
    rw [staleAt_repainted, if_neg (fun both => other both.2)] at marked
    exact markedKind_ne s y marked
  have same := (current 0).symm.trans (current 1)
  simp at same

/-! ### The unit -/

/-- A REPAINT of a LIVE panel (R96, R97). -/
theorem repaintUnit_of_live (ch : Channel) (s : State) (live : s.sustain.panelState = .live) :
    repaintUnit ch s = completeOrder ch (activateScanner (repainted s)) := by
  simp only [repaintUnit, live, if_true]
  rfl

/-- A REPAINT of a panel that is not LIVE completes its order alone (R96). -/
theorem repaintUnit_of_not_live (ch : Channel) (s : State) (h : s.sustain.panelState ≠ .live) :
    repaintUnit ch s = completeOrder ch s := by
  simp only [repaintUnit, h, if_false]

/-- A scanner with a current row stays at it and is ACTIVE (R91). -/
theorem activateScanner_of_current (s : State) (cur : Current) (stale : s.tracker.stale ≠ [])
    (current : s.tracker.scanner.current = some cur) :
    activateScanner s = s.withTracker { s.tracker with scanner := { s.tracker.scanner with active := true } } := by
  rw [activateScanner, if_neg stale]
  exact takeRow_of_current _ cur current

theorem activateScanner_onlyChanges (s : State) : OnlyChanges [.stale, .scanner] s (activateScanner s) := by
  intro p hp
  cases p <;> simp [SamePart] at hp ⊢

theorem repaintUnit_chan (ch : Channel) (s : State) : (repaintUnit ch s).chan ch = { s.chan ch with order := none } := by
  have kept : (activateScanner (repainted s)).chan ch = s.chan ch := by cases ch <;> simp [repainted]
  by_cases live : s.sustain.panelState = .live
  · rw [repaintUnit_of_live ch s live, completeOrder_chan, kept]
  · rw [repaintUnit_of_not_live ch s live, completeOrder_chan]

theorem repaintUnit_port (ch : Channel) (s : State) : (repaintUnit ch s).port = s.port := by
  by_cases live : s.sustain.panelState = .live
  · simp [repaintUnit_of_live ch s live, repainted]
  · simp [repaintUnit_of_not_live ch s live]

theorem repaintUnit_onlyChanges_of_live (ch : Channel) (s : State) (live : s.sustain.panelState = .live) :
    OnlyChanges [.stale, .scanner, chanPart ch] s (repaintUnit ch s) := by
  have marks : OnlyChanges [.stale, .scanner] s (repainted s) := by
    intro p hp
    cases p <;> simp [SamePart, repainted] at hp ⊢
  rw [repaintUnit_of_live ch s live]
  exact ((marks.trans (activateScanner_onlyChanges _)).trans (onlyChanges_withChan ch _ _)).mono
    (by cases ch <;> decide)

theorem repaintUnit_onlyChanges_of_not_live (ch : Channel) (s : State) (h : s.sustain.panelState ≠ .live) :
    OnlyChanges [chanPart ch] s (repaintUnit ch s) := by
  rw [repaintUnit_of_not_live ch s h]
  exact onlyChanges_withChan ch _ _

/-- A REPAINT of a LIVE panel whose scanner has a COHERENT current row (R96, R97). -/
theorem repaintUnit_of_current (ch : Channel) (s : State) (cur : Current) (live : s.sustain.panelState = .live)
    (current : s.tracker.scanner.current = some cur) (coherent : staleAt s cur.row = .coherent) :
    (repaintUnit ch s).tracker.scanner =
        { s.tracker.scanner with active := true, current := some { cur with kind := .unknown } } ∧
      ∀ y, staleAt (repaintUnit ch s) y = if y = cur.row then .coherent else markedKind s y := by
  have stays := activateScanner_of_current (repainted s) { cur with kind := .unknown } (repainted_stale s)
    (by simp [repainted, current])
  rw [repaintUnit_of_live ch s live, stays]
  refine ⟨by simp [repainted, current], fun y => ?_⟩
  rw [← staleAt_repainted_of_some s cur current coherent]
  simp [staleAt]

/-- A REPAINT of a LIVE panel whose scanner has no current row (R92, R96, R97). -/
theorem repaintUnit_of_free (ch : Channel) (s : State) (live : s.sustain.panelState = .live)
    (free : s.tracker.scanner.current = none) :
    let sweep := s.tracker.scanner.sweep
    (repaintUnit ch s).tracker.scanner =
        { s.tracker.scanner with
          active := true, current := some { row := sweep, kind := markedKind s sweep, next := 0 } } ∧
      ∀ y, staleAt (repaintUnit ch s) y = if y = sweep then .coherent else markedKind s y := by
  intro sweep
  have table := staleAt_repainted_of_none s free
  have wf : SparseWf .coherent (repainted s).tracker.stale := by
    rw [repainted_table]
    exact (repaintedTable_wf _).1
  have place : (repainted s).tracker.scanner.sweep = sweep := by simp [repainted, sweep]
  have takes := activateScanner_takes (repainted s) wf live (by simp [repainted, free])
    (by rw [table]; exact markedKind_ne _ _)
  rw [repaintUnit_of_live ch s live, takes, table, place]
  refine ⟨by simp [repainted], fun y => ?_⟩
  have read := sparseGet_set _ _ sweep.val y.val .coherent wf
  rw [← table y]
  simpa [staleAt, Fin.ext_iff] using read

/-! ### The grant -/

/-- REPAINT as a command, at its grant. -/
theorem exec_repaint_granted (ch : Channel) (s : State) (granted : Granted ch s .repaint) :
    exec (.repaint ch) s = .next (closeEvent (repaintUnit ch (grantBegun ch s))) := by
  have order : ((beginEvent s).chan ch).order = some .repaint := by rw [beginEvent_chan, granted.2]
  have grant : grantTo ch (beginEvent s) = repaintUnit ch (grantBegun ch s) := by
    rw [grantTo_of_unit ch _ (by simp only [unitReady, order])]
    simp only [carryUnit, State.withEngine_chan, order]
    rfl
  rw [← grant]
  exact exec_orderCommand ch s .repaint granted

/-- Settles O40: the marked table is not empty, so that the scanner becomes ACTIVE at its current row, or takes the sweep
row. -/
theorem repaintMakesRowsUnknown : Obligations.RepaintMakesRowsUnknown := by
  intro s ch wf granted marked
  have tracker : (grantBegun ch s).tracker = s.tracker := by simp
  have panel : (grantBegun ch s).sustain = s.sustain := by simp
  have stale (y : Coord) : staleAt (grantBegun ch s) y = staleAt s y := by rw [staleAt, tracker, staleAt]
  have marks (y : Coord) : markedKind (grantBegun ch s) y = marked y := by rw [markedKind, stale]
  have table (t : State) (y : Coord) : staleAt (closeEvent t) y = staleAt t y := by simp [staleAt]
  have frame (parts : List Part) (h : OnlyChanges parts (grantBegun ch s) (repaintUnit ch (grantBegun ch s))) :=
    ((onlyChanges_grantBegun ch s).trans h).trans (onlyChanges_closeEvent _)
  have liveFrame (live : s.sustain.panelState = .live) :
      OnlyChanges [.arbiter, .stale, .scanner, chanPart ch, .flags] s (closeEvent (repaintUnit ch (grantBegun ch s))) :=
    frame _ (repaintUnit_onlyChanges_of_live ch _ (panel ▸ live))
  refine ⟨_, exec_repaint_granted ch s granted, ?_, (FlagsAfter.of_flags ?_).closed, fun cur live current coherent => ?_,
    fun live free => ?_, fun notLive => ?_⟩
  · rw [closeEvent_chan, repaintUnit_chan, grantBegun_chan]
  · simp [repaintUnit_port]
  · obtain ⟨scanner, rows⟩ := repaintUnit_of_current ch (grantBegun ch s) cur (panel ▸ live) (tracker ▸ current)
      ((stale _).trans coherent)
    refine ⟨by simp [scanner], fun y => ?_, liveFrame live⟩
    rw [table, rows, marks]
  · obtain ⟨scanner, rows⟩ := repaintUnit_of_free ch (grantBegun ch s) (panel ▸ live) (tracker ▸ free)
    refine ⟨by simp [scanner, marks], fun y => ?_, liveFrame live⟩
    rw [table, rows, marks, tracker]
  · exact frame _ (repaintUnit_onlyChanges_of_not_live ch _ (panel ▸ notLive))

end Sys2Proof.Machine
end

section
/-! PROOFS. Coherence: what the panel's following of the shadow rests on, part by part, and what leaves all of it alone. -/

namespace Sys2Proof.Machine

/-! ### The invariant -/

/-- The part of `PanelLegal` that speaks of the supply monitor and the sustain generator (R75, R78, R83). -/
structure GeneratorLegal (s : State) : Prop where
  running : s.sustain.panelState = .dark ↔ s.sustain.cycle = none
  powered : s.sustain.panelState ≠ .dark → s.sustain.supplyState = .good
  settling : s.sustain.settle.isSome = true ↔ s.sustain.supplyState = .settling
  reset : s.terminalReset = true → s.sustain.panelState = .dark ∧ s.sustain.supplyState = .low

/-- What `PanelFollowsShadow` says of a LIVE panel (R89, R99, R100). -/
structure Follows (s : State) : Prop where
  projects : ∀ y g, staleAt s y = .coherent → toBeRestored s y g = false → projectedAt s y g = shadowAt s y g
  dark : ∀ y g, staleAt s y = .blank → panelAt s y g = 0
  unnamed : ∀ y, staleAt s y = .blank → ∀ item ∈ s.strikes.items, namesRow y item = false
  within : ∀ c, s.tracker.scanner.current = some c → c.kind = .blank →
    ∀ g, c.next ≤ g → projectedAt s c.row g &&& ~~~shadowAt s c.row g = 0

/-- The queue, the tracker and the panel: the rest of `PanelLegal`, `CurrentCoherent` and `PanelFollowsShadow`. -/
structure Tracking (s : State) : Prop where
  off : s.sustain.panelState ≠ .live →
    s.strikes.items = [] ∧ s.tracker.stale = allBlank ∧ s.tracker.scanner.active = false
  idle : s.tracker.scanner.active = false → s.tracker.scanner.current = none
  current : CurrentCoherent s
  follows : s.sustain.panelState = .live → Follows s

/-- The invariant of O41, with the stores' canonical form apart. -/
structure Coherent (s : State) : Prop where
  generator : GeneratorLegal s
  tracking : Tracking s

theorem follows_iff (s : State) : PanelFollowsShadow s ↔ (s.sustain.panelState = .live → Follows s) := by
  constructor
  · intro h live
    obtain ⟨projects, dark, unnamed, within⟩ := h live
    exact ⟨projects, dark, unnamed, within⟩
  · intro h live
    obtain ⟨projects, dark, unnamed, within⟩ := h live
    exact ⟨projects, dark, unnamed, within⟩

theorem coherent_iff (s : State) : Coherent s ↔ PanelLegal s ∧ CurrentCoherent s ∧ PanelFollowsShadow s := by
  rw [follows_iff]
  constructor
  · rintro ⟨⟨running, powered, settling, reset⟩, off, idle, current, follows⟩
    exact ⟨⟨off, running, powered, settling, idle, reset⟩, current, follows⟩
  · rintro ⟨⟨off, running, powered, settling, idle, reset⟩, current, follows⟩
    exact ⟨⟨running, powered, settling, reset⟩, off, idle, current, follows⟩

/-! ### What leaves it alone -/

/-- Everything that the invariant speaks of is the same in both states. -/
structure SameCoherence (s t : State) : Prop where
  shadow : t.engine.shadow = s.engine.shadow
  strikes : t.strikes = s.strikes
  tracker : t.tracker = s.tracker
  panel : t.panel = s.panel
  sustain : t.sustain = s.sustain
  terminalReset : t.terminalReset = s.terminalReset

theorem SameCoherence.trans {s t u : State} (h : SameCoherence s t) (k : SameCoherence t u) : SameCoherence s u :=
  ⟨k.shadow.trans h.shadow, k.strikes.trans h.strikes, k.tracker.trans h.tracker, k.panel.trans h.panel,
    k.sustain.trans h.sustain, k.terminalReset.trans h.terminalReset⟩

theorem SameCoherence.refl (s : State) : SameCoherence s s := ⟨rfl, rfl, rfl, rfl, rfl, rfl⟩

theorem SameCoherence.withChan (ch : Channel) (c : Chan) (s : State) : SameCoherence s (s.withChan ch c) := by
  constructor <;> simp

theorem GeneratorLegal.of_same {s t : State} (h : GeneratorLegal s) (sustain : t.sustain = s.sustain)
    (reset : t.terminalReset = s.terminalReset) : GeneratorLegal t := by
  obtain ⟨running, powered, settling, asserted⟩ := h
  rw [← sustain] at running powered settling asserted
  rw [← reset] at asserted
  exact ⟨running, powered, settling, asserted⟩

/-- What the queue, the tracker and the panel are read from. -/
theorem Tracking.of_same {s t : State} (h : Tracking s) (shadow : t.engine.shadow = s.engine.shadow)
    (items : t.strikes.items = s.strikes.items) (tracker : t.tracker = s.tracker) (lit : t.panel.lit = s.panel.lit)
    (state : t.sustain.panelState = s.sustain.panelState) : Tracking t := by
  have stale (y : Coord) : staleAt t y = staleAt s y := by rw [staleAt, tracker, staleAt]
  have drawn (y : Coord) (g : Group) : shadowAt t y g = shadowAt s y g := by rw [shadowAt, shadow, shadowAt]
  have shows (y : Coord) (g : Group) : panelAt t y g = panelAt s y g := by rw [panelAt, lit, panelAt]
  have projected (y : Coord) (g : Group) : projectedAt t y g = projectedAt s y g := by
    rw [projectedAt, projectedPanel, items, lit, projectedAt, projectedPanel]
  have left (y : Coord) (g : Group) : toBeRestored t y g = toBeRestored s y g := by
    rw [toBeRestored, tracker, toBeRestored]
  refine ⟨?_, ?_, fun c => ?_, fun live => ?_⟩
  · rw [state, items, tracker]
    exact h.off
  · rw [tracker]
    exact h.idle
  · rw [tracker, stale]
    exact h.current c
  · obtain ⟨projects, dark, unnamed, within⟩ := h.follows (state ▸ live)
    constructor <;> simpa only [stale, drawn, shows, projected, left, items, tracker]

theorem Coherent.of_same {s t : State} (h : Coherent s) (same : SameCoherence s t) : Coherent t :=
  ⟨h.generator.of_same same.sustain same.terminalReset,
    h.tracking.of_same same.shadow (by rw [same.strikes]) same.tracker (by rw [same.panel]) (by rw [same.sustain])⟩

/-- Of the sustain generator only the panel state, the supply state and whether timer and cycle run are spoken of. -/
theorem Coherent.withSustain {s : State} (h : Coherent s) (g : Sustain) (state : g.panelState = s.sustain.panelState)
    (supply : g.supplyState = s.sustain.supplyState) (settle : g.settle.isSome = s.sustain.settle.isSome)
    (cycle : g.cycle = none ↔ s.sustain.cycle = none) : Coherent (s.withSustain g) := by
  obtain ⟨⟨running, powered, settling, reset⟩, tracking⟩ := h
  refine ⟨⟨?_, ?_, ?_, ?_⟩, tracking.of_same rfl rfl rfl rfl state⟩ <;>
    simpa only [State.withSustain_sustain, State.withSustain_terminalReset, state, supply, settle, cycle]

/-- On a panel that is not LIVE nothing is queued, every row is BLANK and the scanner is IDLE (R63, R89, R90). -/
theorem tracking_of_not_live {s : State} (state : s.sustain.panelState ≠ .live) (queue : s.strikes.items = [])
    (blank : s.tracker.stale = allBlank) (idle : s.tracker.scanner.active = false)
    (free : s.tracker.scanner.current = none) : Tracking s := by
  refine ⟨fun _ => ⟨queue, blank, idle⟩, fun _ => free, fun c current => ?_, fun live => absurd live state⟩
  rw [free] at current
  cases current

end Sys2Proof.Machine
end

section
/-! PROOFS. What the queue projects to: an item handed over, and the rows that no item names. -/

namespace Sys2Proof.Machine

/-! ### Rows that no item names -/

/-- A row that an item does not name stays dark when it is applied (R62). -/
theorem applyItem_unnamed (item : StrikeItem) (lit : List (Nat × Cells)) (y : Coord) (g : Group)
    (wf : TableWf 0 16384 lit) (other : namesRow y item = false) (dark : sparseGet 0 lit (rowKey y g) = 0) :
    sparseGet 0 (applyItem item lit) (rowKey y g) = 0 := by
  cases item with
  | bulk => rfl
  | strike kind r h cells =>
    have elsewhere : ¬(r = y ∧ h = g) := fun same => by simp [namesRow, same.1] at other
    rw [sparseGet_applyStrike_rowKey kind r y h g cells lit wf, if_neg elsewhere, dark]

/-- A dark row that no item names projects to a dark row (R89). -/
theorem applyItems_unnamed (items : List StrikeItem) (y : Coord) (g : Group) :
    ∀ lit, TableWf 0 16384 lit → (∀ item ∈ items, namesRow y item = false) → sparseGet 0 lit (rowKey y g) = 0 →
      sparseGet 0 (applyItems items lit) (rowKey y g) = 0 := by
  induction items with
  | nil => exact fun _ _ _ dark => dark
  | cons item rest ih =>
    intro lit wf unnamed dark
    obtain ⟨first, later⟩ := List.forall_mem_cons.mp unnamed
    exact ih _ (applyItem_wf item lit wf) later (applyItem_unnamed item lit y g wf first dark)

/-- An item handed over is in the queue as it was, or names its own row. -/
theorem mem_handOver {kind : StrikeKind} {y : Coord} {g : Group} {cells : Cells} {items : List StrikeItem}
    {item : StrikeItem} (h : item ∈ handOver kind y g cells items) :
    item ∈ items ∨ ∃ held, item = .strike kind y g held := by
  rcases handOver_cases kind y g cells items with ⟨-, e⟩ | ⟨-, held, -, e⟩ | ⟨-, -, e⟩ <;> rw [e] at h
  · exact .inl h
  · exact (List.mem_append.mp h).imp (fun old => (List.dropLast_sublist _).subset old) fun new => ⟨_, List.mem_singleton.mp new⟩
  · exact (List.mem_append.mp h).imp_right fun new => ⟨_, List.mem_singleton.mp new⟩

theorem handOver_unnamed {kind : StrikeKind} {y z : Coord} {g : Group} {cells : Cells} {items : List StrikeItem}
    (other : y ≠ z) (unnamed : ∀ item ∈ items, namesRow z item = false) :
    ∀ item ∈ handOver kind y g cells items, namesRow z item = false := by
  intro item listed
  rcases mem_handOver listed with before | ⟨held, rfl⟩
  · exact unnamed item before
  · simp [namesRow, other]

/-- The items of one row-group name no other row. -/
theorem handPair_unnamed {y z : Coord} {g : Group} {erase write : Cells} {items : List StrikeItem} (other : y ≠ z)
    (unnamed : ∀ item ∈ items, namesRow z item = false) :
    ∀ item ∈ handPair y g erase write items, namesRow z item = false :=
  handOver_unnamed other (handOver_unnamed other unnamed)

/-! ### The row-group of the items -/

/-- An item handed over is applied, in its row-group alone (R14, R62, R64). -/
theorem applyItems_handOver_rowKey (kind : StrikeKind) (y z : Coord) (g h : Group) (cells : Cells)
    (items : List StrikeItem) (lit : List (Nat × Cells)) (wf : TableWf 0 16384 lit) :
    sparseGet 0 (applyItems (handOver kind y g cells items) lit) (rowKey z h) =
      if y = z ∧ g = h then struck kind cells (sparseGet 0 (applyItems items lit) (rowKey z h))
      else sparseGet 0 (applyItems items lit) (rowKey z h) := by
  rw [applyItems_handOver kind y g cells items lit wf, applyItems_snoc,
    sparseGet_applyStrike_rowKey kind y z g h cells _ (applyItems_wf items lit wf)]

/-- ERASE and then WRITE of one row-group (R12, R93). -/
theorem applyItems_handPair (y z : Coord) (g h : Group) (erase write : Cells) (items : List StrikeItem)
    (lit : List (Nat × Cells)) (wf : TableWf 0 16384 lit) :
    sparseGet 0 (applyItems (handPair y g erase write items) lit) (rowKey z h) =
      if y = z ∧ g = h then struck .write write (struck .erase erase (sparseGet 0 (applyItems items lit) (rowKey z h)))
      else sparseGet 0 (applyItems items lit) (rowKey z h) := by
  rw [handPair, applyItems_handOver_rowKey .write y z g h write _ lit wf,
    applyItems_handOver_rowKey .erase y z g h erase items lit wf]
  split <;> rfl

/-- The strikes of a drawn row-group that shows its old set make it show its new one (R12). -/
theorem struck_differences (old new : Cells) : struck .write (new &&& ~~~old) (struck .erase (old &&& ~~~new) old) = new := by
  refine BitVec.eq_of_getLsbD_eq fun k hk => ?_
  simp only [struck, BitVec.getLsbD_or, BitVec.getLsbD_and, BitVec.getLsbD_not, hk, decide_true, Bool.true_and]
  cases old.getLsbD k <;> cases new.getLsbD k <;> rfl

/-- A set lies within another exactly when every cell of it is one of the other. -/
theorem within_iff (a b : Cells) : a &&& ~~~b = 0 ↔ ∀ k, k < 16 → a.getLsbD k = true → b.getLsbD k = true := by
  constructor
  · intro empty k hk lit
    have cell := congrArg (BitVec.getLsbD · k) empty
    simpa [hk, lit] using cell
  · intro all
    refine BitVec.eq_of_getLsbD_eq fun k hk => ?_
    cases lit : a.getLsbD k with
    | false => simp [lit]
    | true => simp [lit, all k hk lit]

/-- They keep a row-group that shows no cell outside its old set within its new one (R100). -/
theorem struck_differences_within (shown old new : Cells) (h : shown &&& ~~~old = 0) :
    struck .write (new &&& ~~~old) (struck .erase (old &&& ~~~new) shown) &&& ~~~new = 0 := by
  rw [within_iff] at *
  intro k hk
  have inOld := h k hk
  simp only [struck, BitVec.getLsbD_or, BitVec.getLsbD_and, BitVec.getLsbD_not, hk, decide_true, Bool.true_and]
  revert inOld
  cases shown.getLsbD k <;> cases old.getLsbD k <;> cases new.getLsbD k <;> decide

/-- The items of a restore step make a row-group show its shadow set, where a BLANK one shows no cell outside it (R93,
R100). -/
theorem struck_restored (blank : Prop) [Decidable blank] (shown lit : Cells) (h : blank → shown &&& ~~~lit = 0) :
    struck .write lit (struck .erase (if blank then 0 else ~~~lit) shown) = lit := by
  refine BitVec.eq_of_getLsbD_eq fun k hk => ?_
  split
  · rename_i holds
    have inside := (within_iff shown lit).mp (h holds) k hk
    rw [struck_empty]
    cases shows : shown.getLsbD k with
    | false => simp [struck, shows]
    | true => simp [struck, shows, inside shows]
  · simp [struck, hk]

end Sys2Proof.Machine
end

section
/-! PROOFS. The queue, the tracker and the panel after each operation on them: a take, a restore step, the drawing of a span,
a wipe, a REPAINT, and the address windows. -/

namespace Sys2Proof.Machine

/-! ### Takes -/

theorem CurrentCoherent.of_none {s : State} (free : s.tracker.scanner.current = none) : CurrentCoherent s := by
  intro c current
  rw [free] at current
  cases current

theorem toBeRestored_of_none {s : State} (free : s.tracker.scanner.current = none) (y : Coord) (g : Group) :
    toBeRestored s y g = false := by
  rw [toBeRestored, free]

theorem toBeRestored_of_some {s : State} {cur : Current} (current : s.tracker.scanner.current = some cur) (y : Coord)
    (g : Group) : toBeRestored s y g = (decide (cur.row = y) && decide (cur.next ≤ g)) := by
  rw [toBeRestored, current]

/-- A BLANK row that no item names projects to a dark row (R89). -/
theorem Follows.projects_blank {s : State} (h : Follows s) (wf : TableWf 0 16384 s.panel.lit) {y : Coord}
    (blank : staleAt s y = .blank) (g : Group) : projectedAt s y g = 0 :=
  applyItems_unnamed _ y g _ wf (h.unnamed y blank) (h.dark y g blank)

/-- The row that a take makes the current one is COHERENT, every other row is as it was. -/
theorem staleAt_taken (s : State) (row : Nat) (scanner : Scanner) (wf : TableWf .coherent 512 s.tracker.stale) (y : Coord) :
    staleAt (s.withTracker { stale := sparseSet .coherent s.tracker.stale row .coherent, scanner := scanner }) y =
      if y.val = row then .coherent else staleAt s y :=
  sparseGet_set _ _ _ _ _ wf.1

/-- A row that is taken has still to be restored whole, and its projection is dark where it was BLANK (R92, R99, R100). -/
theorem takeRow_tracking (s : State) (stores : StoresSound s) (hs : Tracking s) : Tracking (takeRow s) := by
  rcases takeRow_cases s with ⟨-, e⟩ | ⟨⟨live, -, free⟩, -, e⟩ | ⟨⟨live, active, free⟩, row, kind, found, e⟩ <;> rw [e]
  · exact hs
  · exact ⟨fun dark => absurd live dark, fun _ => free, .of_none free, fun live => { hs.follows live with }⟩
  · obtain ⟨bound, reads, notCoherent⟩ := rowToTake_sound _ _ _ _ stores.stale found
    have table := staleAt_taken s row
      { s.tracker.scanner with current := some { row := coord row, kind := kind, next := 0 } } stores.stale
    have place : (coord row).val = row := coord_val_of_lt row bound
    have kindOf : staleAt s (coord row) = kind := by rw [staleAt, place, reads]
    have follows := hs.follows live
    refine ⟨fun dark => absurd live dark, fun idle => ?_, fun c current => ?_, fun _ => ⟨fun y g coherent left => ?_,
      fun y g blank => ?_, fun y blank => ?_, fun c current blank g _ => ?_⟩⟩
    · rw [active] at idle
      cases idle
    · cases current
      exact ⟨by rw [table, if_pos place], notCoherent⟩
    · have other : coord row ≠ y := by
        rintro rfl
        simp [toBeRestored] at left
      rw [table, if_neg fun here => other (Fin.ext (place.trans here.symm))] at coherent
      exact follows.projects y g coherent (toBeRestored_of_none free y g)
    · rw [table] at blank
      split at blank
      · cases blank
      · exact follows.dark y g blank
    · rw [table] at blank
      split at blank
      · cases blank
      · exact follows.unnamed y blank
    · cases current
      have dark : projectedAt s (coord row) g = 0 := follows.projects_blank stores.lit (kindOf.trans blank) g
      show projectedAt s (coord row) g &&& _ = 0
      rw [dark]
      exact BitVec.zero_and

/-- On a LIVE panel the scanner becomes ACTIVE with nothing else changed but by a take (R91). -/
theorem activateScanner_tracking (s : State) (stores : StoresSound s) (live : s.sustain.panelState = .live)
    (hs : Tracking s) : Tracking (activateScanner s) := by
  unfold activateScanner
  split
  · exact hs
  · refine takeRow_tracking _ { stores with } ⟨fun dark => absurd live dark, fun idle => (nomatch idle), hs.current,
      fun live => { hs.follows live with }⟩

/-! ### A restore step -/

/-- The current row after a restore step, before a take: none behind its last group (R93, R94). -/
theorem groupRestored_current (s : State) (cur : Current) :
    (groupRestored cur s).tracker.scanner.current =
      if cur.next.val = 31 then none else some { cur with next := group (cur.next.val + 1) } := by
  simp only [groupRestored, afterStep, State.withTracker_tracker]
  split <;> rfl

/-- After a restore step the groups behind its own are still to be restored. -/
theorem toBeRestored_groupRestored (s : State) (cur : Current) (y : Coord) (g : Group) :
    toBeRestored (groupRestored cur s) y g = (decide (cur.row = y) && decide (cur.next < g)) := by
  have current := groupRestored_current s cur
  have top := g.isLt
  by_cases last : cur.next.val = 31
  · rw [if_pos last] at current
    have past : ¬cur.next < g := by rw [Fin.lt_def]; omega
    simp [toBeRestored_of_none current, past]
  · rw [if_neg last] at current
    have next : (group (cur.next.val + 1)).val = cur.next.val + 1 := Nat.mod_eq_of_lt (by omega)
    simp only [toBeRestored_of_some current, Fin.le_def, Fin.lt_def, next, Nat.succ_le_iff]

/-- A row-group other than that of the step was to be restored before if it is not to be after. -/
theorem not_toBeRestored_of_groupRestored {s : State} {cur : Current}
    (current : s.tracker.scanner.current = some cur) {y : Coord} {g : Group} (other : ¬(cur.row = y ∧ cur.next = g))
    (restored : toBeRestored (groupRestored cur s) y g = false) : toBeRestored s y g = false := by
  rw [toBeRestored_groupRestored] at restored
  rw [toBeRestored_of_some current]
  by_cases row : cur.row = y
  · have behind : ¬cur.next < g := by simpa [row] using restored
    have before : ¬cur.next ≤ g := fun up => other ⟨row, Fin.ext (Nat.le_antisymm up (Nat.not_lt.mp behind))⟩
    simp [before]
  · simp [row]

/-- A restore step makes its row-group project to its shadow set, and leaves the others (R93, R99, R100). -/
theorem projectedAt_groupRestored (s : State) (cur : Current) (stores : StoresSound s) (hs : Follows s)
    (current : s.tracker.scanner.current = some cur) (y : Coord) (g : Group) :
    projectedAt (groupRestored cur s) y g =
      if cur.row = y ∧ cur.next = g then shadowAt s y g else projectedAt s y g := by
  have items := applyItems_handPair cur.row y cur.next g (if cur.kind = .blank then 0 else ~~~shadowAt s cur.row cur.next)
    (shadowAt s cur.row cur.next) s.strikes.items s.panel.lit stores.lit
  refine Eq.trans items ?_
  split
  · rename_i here
    obtain ⟨rfl, rfl⟩ := here
    exact struck_restored _ _ _ fun blank => hs.within cur current blank cur.next (Nat.le_refl _)
  · rfl

/-- A restore step keeps the panel's following of the shadow. -/
theorem groupRestored_tracking (s : State) (cur : Current) (stores : StoresSound s) (live : s.sustain.panelState = .live)
    (active : s.tracker.scanner.active = true) (current : s.tracker.scanner.current = some cur) (hs : Tracking s) :
    Tracking (groupRestored cur s) := by
  obtain ⟨coherent, kind⟩ := hs.current cur current
  have follows := hs.follows live
  have projected := projectedAt_groupRestored s cur stores follows current
  have active' : (groupRestored cur s).tracker.scanner.active = true := by
    simp only [groupRestored, afterStep, State.withTracker_tracker]
    split <;> exact active
  have after (c : Current) (h : (groupRestored cur s).tracker.scanner.current = some c) :
      c.row = cur.row ∧ c.kind = cur.kind := by
    rw [groupRestored_current] at h
    split at h
    · cases h
    · cases h
      exact ⟨rfl, rfl⟩
  refine ⟨fun dark => absurd live dark, fun idle => ?_, fun c next => ?_, fun _ => ⟨fun y g same left => ?_,
    follows.dark, fun y blank => ?_, fun c next blank g up => ?_⟩⟩
  · rw [active'] at idle
    cases idle
  · obtain ⟨row, sort⟩ := after c next
    rw [row, sort]
    exact ⟨coherent, kind⟩
  · rw [projected]
    split
    · rfl
    · rename_i other
      exact follows.projects y g same (not_toBeRestored_of_groupRestored current other left)
  · have other : cur.row ≠ y := by
      rintro rfl
      exact absurd (coherent.symm.trans blank) (by decide)
    exact handPair_unnamed other (follows.unnamed y blank)
  · obtain ⟨row, sort⟩ := after c next
    have left : toBeRestored (groupRestored cur s) c.row g = true := by simp [toBeRestored_of_some next, up]
    rw [toBeRestored_groupRestored] at left
    have behind : cur.next < g := of_decide_eq_true ((Bool.and_eq_true _ _).mp left).2
    have other : ¬(cur.row = cur.row ∧ cur.next = g) := fun here =>
      absurd (congrArg Fin.val here.2) (Nat.ne_of_lt behind)
    rw [row, projected, if_neg other]
    exact follows.within cur current (sort ▸ blank) g (Nat.le_of_lt behind)

/-- A restore step that is due, with the take behind it. -/
theorem restoreStep_tracking (s : State) (stores : StoresSound s) (due : restoreDue s = true) (hs : Tracking s) :
    Tracking (restoreStep s) := by
  obtain ⟨cur, current⟩ := current_of_restoreDue s due
  have active := active_of_restoreDue s due
  have live : s.sustain.panelState = .live := by
    refine Classical.byContradiction fun dark => ?_
    obtain ⟨-, -, idle⟩ := hs.off dark
    rw [active] at idle
    cases idle
  rw [restoreStep_eq s cur current]
  exact takeRow_tracking _ { stores with } (groupRestored_tracking s cur stores live active current hs)

/-! ### The drawing of a span -/

/-- The projection after a span is drawn in a row that is not stale, with a clipped box that is not empty (R12). -/
theorem projectedAt_drawSpan (h : Held) (s : State) (stores : StoresSound s)
    (strikes : (drawSpan h s).strikes.items =
      handPair h.span.row h.span.group (shadowAt s h.span.row h.span.group &&& ~~~newCells s h.channel h.span)
        (newCells s h.channel h.span &&& ~~~shadowAt s h.span.row h.span.group) s.strikes.items)
    (y : Coord) (g : Group) :
    projectedAt (drawSpan h s) y g =
      if h.span.row = y ∧ h.span.group = g then
        struck .write (shadowAt (drawSpan h s) y g &&& ~~~shadowAt s y g)
          (struck .erase (shadowAt s y g &&& ~~~shadowAt (drawSpan h s) y g) (projectedAt s y g))
      else projectedAt s y g := by
  have panel : (drawSpan h s).panel = s.panel := by simp
  have items := applyItems_handPair h.span.row y h.span.group g
    (shadowAt s h.span.row h.span.group &&& ~~~newCells s h.channel h.span)
    (newCells s h.channel h.span &&& ~~~shadowAt s h.span.row h.span.group) s.strikes.items s.panel.lit stores.lit
  rw [projectedAt, projectedPanel_eq, strikes, panel, items]
  split
  · rename_i here
    obtain ⟨rfl, rfl⟩ := here
    rw [shadowAt_drawSpan h s stores.shadow, if_pos ⟨rfl, rfl⟩]
    rfl
  · rfl

/-- A change of the shadow image and the queue keeps the panel's following of the shadow when, row by row, what is projected
follows what is shadowed. -/
theorem Tracking.redrawn {s t : State} (hs : Tracking s) (tracker : t.tracker = s.tracker) (panel : t.panel = s.panel)
    (state : t.sustain.panelState = s.sustain.panelState)
    (off : s.sustain.panelState ≠ .live → t.strikes.items = s.strikes.items)
    (unnamed : ∀ y, staleAt s y = .blank → (∀ item ∈ s.strikes.items, namesRow y item = false) →
      ∀ item ∈ t.strikes.items, namesRow y item = false)
    (projects : ∀ y g, staleAt s y = .coherent → projectedAt s y g = shadowAt s y g → projectedAt t y g = shadowAt t y g)
    (within : ∀ y g, staleAt s y = .coherent → projectedAt s y g &&& ~~~shadowAt s y g = 0 →
      projectedAt t y g &&& ~~~shadowAt t y g = 0) : Tracking t := by
  have stale (y : Coord) : staleAt t y = staleAt s y := by rw [staleAt, tracker, staleAt]
  have left (y : Coord) (g : Group) : toBeRestored t y g = toBeRestored s y g := by
    rw [toBeRestored, tracker, toBeRestored]
  refine ⟨fun dark => ?_, ?_, fun c => ?_, fun live => ?_⟩
  · rw [state] at dark
    rw [off dark, tracker]
    exact hs.off dark
  · rw [tracker]
    exact hs.idle
  · rw [tracker, stale]
    exact hs.current c
  · have follows := hs.follows (state ▸ live)
    refine ⟨fun y g coherent restored => ?_, fun y g blank => ?_, fun y blank => ?_, fun c current blank g up => ?_⟩
    · rw [stale] at coherent
      rw [left] at restored
      exact projects y g coherent (follows.projects y g coherent restored)
    · rw [stale] at blank
      rw [panelAt, panel]
      exact follows.dark y g blank
    · rw [stale] at blank
      exact unnamed y blank (follows.unnamed y blank)
    · rw [tracker] at current
      exact within c.row g (hs.current c current).1 (follows.within c current blank g up)

/-- The drawing of a span keeps the panel's following of the shadow: a stale row is not spoken of, and the differences of
another are struck (R12, R13, R99). -/
theorem drawSpan_tracking (h : Held) (s : State) (stores : StoresSound s) (hs : Tracking s) : Tracking (drawSpan h s) := by
  have panel : (drawSpan h s).panel = s.panel := by simp
  have redrawn := hs.redrawn (t := drawSpan h s) (by simp) panel (by simp)
  rcases drawSpan_cases h s with ⟨-, e⟩ | ⟨-, -, ⟨marked, queue⟩ | ⟨fresh, queue⟩⟩
  · rw [e]
    exact hs
  · have projected (y : Coord) (g : Group) : projectedAt (drawSpan h s) y g = projectedAt s y g := by
      rw [projectedAt, projectedPanel, queue, panel, projectedAt, projectedPanel]
    have shadow (y : Coord) (g : Group) (coherent : staleAt s y = .coherent) :
        shadowAt (drawSpan h s) y g = shadowAt s y g := by
      rw [shadowAt_drawSpan h s stores.shadow, if_neg]
      rintro ⟨rfl, -⟩
      simp [isStale, coherent] at marked
    refine redrawn (fun _ => by rw [queue]) (fun _ _ unnamed => queue ▸ unnamed) (fun y g coherent same => ?_)
      fun y g coherent inside => ?_
    · rw [projected, shadow y g coherent, same]
    · rw [projected, shadow y g coherent, inside]
  · have items := congrArg Strikes.items queue
    have coherent : staleAt s h.span.row = .coherent := by simpa [isStale] using fresh
    have projected := projectedAt_drawSpan h s stores items
    have shadow (y : Coord) (g : Group) (other : ¬(h.span.row = y ∧ h.span.group = g)) :
        shadowAt (drawSpan h s) y g = shadowAt s y g := by
      rw [shadowAt_drawSpan h s stores.shadow, if_neg fun here => other ⟨here.1.symm, here.2.symm⟩]
    refine redrawn (fun dark => ?_) (fun y blank unnamed => ?_) (fun y g _ same => ?_) fun y g _ inside => ?_
    · obtain ⟨-, allBlank, -⟩ := hs.off dark
      rw [staleAt_of_allBlank s allBlank] at coherent
      cases coherent
    · have other : h.span.row ≠ y := by
        rintro rfl
        exact absurd (coherent.symm.trans blank) (by decide)
      rw [items]
      exact handPair_unnamed other unnamed
    · rw [projected]
      split
      · rw [same, struck_differences]
      · rw [shadow y g ‹_›, same]
    · rw [projected]
      split
      · exact struck_differences_within _ _ _ inside
      · rw [shadow y g ‹_›, inside]

/-! ### WIPE and REPAINT -/

/-- A full-panel wipe leaves nothing lit, nothing stale, and a bulk strike to come (R31, R67, R98). -/
theorem fullWipe_tracking (s : State) (hs : Tracking s) : Tracking (fullWipe s) := by
  by_cases live : s.sustain.panelState = .live
  · rw [fullWipe_of_live s live]
    refine ⟨fun dark => absurd live dark, fun _ => rfl, .of_none rfl, fun _ => ⟨fun _ _ _ _ => rfl, ?_, ?_, ?_⟩⟩
    · exact fun _ _ blank => (nomatch blank)
    · exact fun _ blank => (nomatch blank)
    · exact fun _ current => (nomatch current)
  · rw [fullWipe_of_not_live s live]
    obtain ⟨queue, blank, idle⟩ := hs.off live
    exact tracking_of_not_live live queue blank idle (hs.idle idle)

/-- The tracker is no part of what the shadow image, the panel and the queue show. -/
theorem shown_withTracker (s : State) (v : Tracker) (y : Coord) (g : Group) :
    shadowAt (s.withTracker v) y g = shadowAt s y g ∧ panelAt (s.withTracker v) y g = panelAt s y g ∧
      projectedAt (s.withTracker v) y g = projectedAt s y g :=
  ⟨rfl, rfl, rfl⟩

/-- A row that is COHERENT after a REPAINT was so before, and so was a BLANK one (R96). -/
theorem staleAt_repainted_cases (s : State) (y : Coord) :
    (staleAt (repainted s) y = .coherent → staleAt s y = .coherent) ∧
      (staleAt (repainted s) y = .blank → staleAt s y = .blank) := by
  rw [staleAt_repainted]
  split
  · rename_i here
    exact ⟨fun _ => here.1, fun blank => (nomatch blank)⟩
  · unfold markedKind
    split
    · exact ⟨fun e => (nomatch e), fun e => (nomatch e)⟩
    · exact ⟨id, id⟩

/-- A REPAINT of a LIVE panel marks rows UNKNOWN, of which nothing is said (R96, R97). -/
theorem repainted_tracking (s : State) (live : s.sustain.panelState = .live) (hs : Tracking s) :
    Tracking (repainted s) := by
  have follows := hs.follows live
  have shown (y : Coord) (g : Group) : shadowAt (repainted s) y g = shadowAt s y g ∧
      panelAt (repainted s) y g = panelAt s y g ∧ projectedAt (repainted s) y g = projectedAt s y g :=
    shown_withTracker s _ y g
  have left (y : Coord) (g : Group) : toBeRestored (repainted s) y g = toBeRestored s y g := by
    cases current : s.tracker.scanner.current <;> simp [toBeRestored, repainted, current]
  have after (c : Current) (h : (repainted s).tracker.scanner.current = some c) :
      ∃ cur, s.tracker.scanner.current = some cur ∧ c.row = cur.row ∧ c.kind = .unknown := by
    obtain ⟨cur, current, rfl⟩ := Option.map_eq_some_iff.mp h
    exact ⟨cur, current, rfl, rfl⟩
  refine ⟨fun dark => absurd live dark, fun idle => ?_, fun c current => ?_, fun _ => ⟨fun y g coherent restored => ?_,
    fun y g blank => ?_, fun y blank => ?_, fun c current blank => ?_⟩⟩
  · have free := hs.idle idle
    simp [repainted, free]
  · obtain ⟨cur, before, row, unknown⟩ := after c current
    have coherent := (hs.current cur before).1
    rw [row, unknown, staleAt_repainted_of_some s cur before coherent, if_pos rfl]
    exact ⟨rfl, by decide⟩
  · obtain ⟨shadow, -, projected⟩ := shown y g
    rw [left] at restored
    rw [shadow, projected]
    exact follows.projects y g ((staleAt_repainted_cases s y).1 coherent) restored
  · obtain ⟨-, panel, -⟩ := shown y g
    rw [panel]
    exact follows.dark y g ((staleAt_repainted_cases s y).2 blank)
  · exact follows.unnamed y ((staleAt_repainted_cases s y).2 blank)
  · obtain ⟨-, -, -, unknown⟩ := after c current
    rw [unknown] at blank
    cases blank

/-! ### Address windows -/

/-- A window on a LIVE panel applies the head item, which projects to the same and leaves BLANK rows dark (R69, R89). -/
theorem liveWindow_tracking (s : State) (stores : StoresSound s) (live : s.sustain.panelState = .live) (hs : Tracking s) :
    Tracking (liveWindow s) := by
  cases head : s.strikes.items with
  | nil =>
    rw [liveWindow_of_empty s head]
    exact hs.of_same rfl rfl rfl rfl rfl
  | cons item rest =>
    have follows := hs.follows live
    have unnamed (y : Coord) (blank : staleAt s y = .blank) := List.forall_mem_cons.mp (head ▸ follows.unnamed y blank)
    have window := liveWindow_of_head s item rest head
    have projected (y : Coord) (g : Group) : projectedAt (liveWindow s) y g = projectedAt s y g := by
      rw [projectedAt, projectedAt, projectedPanel, projectedPanel, head, window]
      rfl
    rw [window] at projected ⊢
    refine ⟨fun dark => absurd live dark, hs.idle, hs.current, fun _ => ⟨fun y g coherent restored => ?_,
      fun y g blank => ?_, fun y blank => (unnamed y blank).2, fun c current blank g up => ?_⟩⟩
    · rw [projected]
      exact follows.projects y g coherent restored
    · exact applyItem_unnamed item _ y g stores.lit (unnamed y blank).1 (follows.dark y g blank)
    · rw [projected]
      exact follows.within c current blank g up

/-- At the bulk strike of the priming window every row is BLANK and dark, with nothing queued (R71, R82, R89). -/
theorem primed_tracking (s : State) (priming : s.sustain.panelState = .priming) (hs : Tracking s) : Tracking (primed s) := by
  obtain ⟨queue, allBlank, idle⟩ := hs.off (by simp [priming])
  have blank (y : Coord) : staleAt (primed s) y = .blank := staleAt_of_allBlank _ allBlank y
  have free : (primed s).tracker.scanner.current = none := hs.idle idle
  refine ⟨fun dark => absurd rfl dark, fun _ => free, .of_none free, fun _ => ⟨fun y _ coherent => ?_, fun _ _ _ => rfl,
    fun _ _ item listed => ?_, fun c current => ?_⟩⟩
  · rw [blank] at coherent
    cases coherent
  · have listed' : item ∈ s.strikes.items := listed
    rw [queue] at listed'
    cases listed'
  · rw [free] at current
    cases current

end Sys2Proof.Machine
end

section
/-! PROOFS. The part's own steps keep the panel's following of the shadow. -/

namespace Sys2Proof.Machine

/-! ### The render of a span -/

theorem drawSpan_coherent (h : Held) (s : State) (stores : StoresSound s) (hs : Coherent s) : Coherent (drawSpan h s) :=
  ⟨hs.generator.of_same (by simp) (by simp), drawSpan_tracking h s stores hs.tracking⟩

theorem renderSpan_coherent (h : Held) (s : State) (stores : StoresSound s) (hs : Coherent s) :
    Coherent (renderSpan h s) := by
  refine (drawSpan_coherent h s stores hs).of_same ⟨?_, renderSpan_strikes h s, ?_, ?_, ?_, ?_⟩
  · rw [renderSpan_engine]
  all_goals simp

theorem renderHeld_coherent (s : State) (stores : StoresSound s) (hs : Coherent s) : Coherent (renderHeld s) := by
  cases held : s.engine.held with
  | none =>
    rw [renderHeld_of_none s held]
    exact hs
  | some h =>
    rw [renderHeld_of_some s h held]
    exact renderSpan_coherent h s stores hs

theorem placeSpan_coherent (h : Held) (s : State) (stores : StoresSound s) (hs : Coherent s) : Coherent (placeSpan h s) := by
  rcases placeSpan_cases h s with ⟨-, e⟩ | ⟨-, e⟩ <;> rw [e]
  · exact renderSpan_coherent h s stores hs
  · exact hs.of_same (by constructor <;> rfl)

/-! ### Units -/

theorem completeOrder_same (ch : Channel) (s : State) : SameCoherence s (completeOrder ch s) := .withChan ch _ s

theorem glyphUnit_same (ch : Channel) (slot : Byte) (s : State) : SameCoherence s (glyphUnit ch slot s) := by
  unfold glyphUnit
  split <;> constructor <;> simp

theorem passUnit_same (ch : Channel) (payload : BitVec 12) (s : State) : SameCoherence s (passUnit ch payload s) := by
  unfold passUnit
  split <;> constructor <;> simp

theorem fullWipe_coherent (s : State) (hs : Coherent s) : Coherent (fullWipe s) := by
  refine ⟨hs.generator.of_same ?_ ?_, fullWipe_tracking s hs.tracking⟩ <;>
    by_cases live : s.sustain.panelState = .live <;> simp [fullWipe_of_live, fullWipe_of_not_live, live]

theorem wipeUnit_coherent (ch : Channel) (s : State) (hs : Coherent s) : Coherent (wipeUnit ch s) := by
  unfold wipeUnit
  split
  · exact hs.of_same (.withChan ch _ s)
  · exact (fullWipe_coherent s hs).of_same (completeOrder_same ch _)

theorem repaintUnit_coherent (ch : Channel) (s : State) (stores : StoresSound s) (hs : Coherent s) :
    Coherent (repaintUnit ch s) := by
  by_cases live : s.sustain.panelState = .live
  · have table : StoresSound (repainted s) := stores.withStale _ _ (repaintedTable_wf s.tracker)
    have scanning : Coherent (activateScanner (repainted s)) :=
      ⟨hs.generator.of_same (by simp [repainted]) (by simp [repainted]),
        activateScanner_tracking (repainted s) table live (repainted_tracking s live hs.tracking)⟩
    rw [repaintUnit_of_live ch s live]
    exact scanning.of_same (completeOrder_same ch _)
  · rw [repaintUnit_of_not_live ch s live]
    exact hs.of_same (completeOrder_same ch s)

theorem superviseEffect_coherent (f : Supervise) (s : State) (hs : Coherent s) : Coherent (superviseEffect f s) := by
  cases f with
  | take | give => exact hs.of_same (by constructor <;> simp [superviseEffect])
  | area | lock | route => exact hs.of_same (by constructor <;> rfl)
  | timing => exact hs.withSustain _ rfl rfl rfl Iff.rfl

theorem carryUnit_coherent (ch : Channel) (s : State) (stores : StoresSound s) (hs : Coherent s) :
    Coherent (carryUnit ch s) := by
  unfold carryUnit
  split
  · exact hs.of_same (glyphUnit_same ch _ s)
  · exact wipeUnit_coherent ch s hs
  · exact hs.of_same (passUnit_same ch _ s)
  · exact (superviseEffect_coherent _ s hs).of_same (completeOrder_same ch _)
  · exact repaintUnit_coherent ch s stores hs
  · exact hs

/-! ### Grants and the part's own steps -/

theorem grantTo_coherent (ch : Channel) (s : State) (stores : StoresSound s) (hs : Coherent s) : Coherent (grantTo ch s) := by
  have named : Coherent (s.withEngine { s.engine with arbiter := ch }) := hs.of_same (by constructor <;> rfl)
  have sound : StoresSound (s.withEngine { s.engine with arbiter := ch }) := { stores with }
  rcases grantTo_cases ch s with ⟨-, e⟩ | ⟨-, -, e⟩ | ⟨-, p, c, -, e⟩ <;> rw [e]
  · exact carryUnit_coherent ch _ sound named
  · exact named
  · exact placeSpan_coherent _ _ (withChan_storesSound ch c _ sound) (named.of_same (.withChan ch c _))

theorem restoreStep_coherent (s : State) (stores : StoresSound s) (due : restoreDue s = true) (hs : Coherent s) :
    Coherent (restoreStep s) :=
  ⟨hs.generator.of_same (by simp) (by simp), restoreStep_tracking s stores due hs.tracking⟩

theorem runInternal_coherent (i : Internal) (s : State) (stores : StoresSound s) (due : isDue i s = true)
    (hs : Coherent s) : Coherent (runInternal i s) := by
  cases i with
  | decode ch => exact hs.of_same (by constructor <;> simp [runInternal])
  | droppedRow ch => exact hs.of_same (.withChan ch _ s)
  | render => exact renderHeld_coherent s stores hs
  | grant =>
    show Coherent (grantStep s)
    unfold grantStep
    split
    · exact hs
    · exact grantTo_coherent _ s stores hs
  | grantLine => exact grantTo_coherent .lineCh s stores hs
  | restore => exact restoreStep_coherent s stores due hs

end Sys2Proof.Machine
end

section
/-! PROOFS. The sustain, the supply and the resets keep the panel's following of the shadow. -/

namespace Sys2Proof.Machine

/-! ### Loss and start -/

/-- At a loss nothing is queued, every row is BLANK, and the scanner is IDLE (R68, R83, R95). -/
theorem lose_tracking (s : State) (stores : StoresSound s) (hs : Tracking s) : Tracking (lose s) := by
  by_cases dark : s.sustain.panelState = .dark
  · rw [lose_of_dark s dark]
    exact hs
  · rw [lose_of_running s dark]
    have state : (renderHeld (darkened s)).sustain.panelState ≠ .live := by simp [darkened, enterDark]
    exact tracking_of_not_live state (by rw [renderHeld_darkened_strikes s stores.shadow]) (by simp [darkened_blank])
      (by simp [darkened, enterDark, lostTracker]) (by simp [darkened, enterDark, lostTracker])

/-- After a loss no cycle is in progress, and the monitor stands as before (R83). -/
theorem lose_generatorLegal (s : State) (running : s.sustain.panelState = .dark ↔ s.sustain.cycle = none)
    (settling : s.sustain.settle.isSome = true ↔ s.sustain.supplyState = .settling) (released : s.terminalReset = false) :
    GeneratorLegal (lose s) := by
  have reset : (lose s).terminalReset = s.terminalReset := by simp
  have stopped : (lose s).sustain = { s.sustain with panelState := .dark, cycle := none } := by
    by_cases dark : s.sustain.panelState = .dark
    · rw [lose_of_dark s dark, ← dark, ← running.mp dark]
    · exact lose_sustain s dark
  refine ⟨?_, ?_, ?_, fun asserted => ?_⟩
  · simp [stopped]
  · simp [stopped]
  · simpa [stopped] using settling
  · rw [reset, released] at asserted
    cases asserted

/-- The terminal reset input is not asserted while the supply is not LOW (R75). -/
theorem GeneratorLegal.released_of_supply {s : State} (h : GeneratorLegal s) (supply : s.sustain.supplyState ≠ .low) :
    s.terminalReset = false :=
  Bool.eq_false_iff.mpr fun asserted => supply (h.reset asserted).2

/-- Nor while the sustain runs (R75). -/
theorem GeneratorLegal.released_of_running {s : State} (h : GeneratorLegal s) (running : s.sustain.panelState ≠ .dark) :
    s.terminalReset = false :=
  Bool.eq_false_iff.mpr fun asserted => running (h.reset asserted).1

/-- The sustain starts on a DARK panel, which is PRIMING then (R78). -/
theorem startWhenReady_coherent (s : State) (hs : Coherent s) : Coherent (startWhenReady s) := by
  by_cases ready : readyToStart s.sustain
  · have ⟨good, _, dark⟩ := ready
    obtain ⟨queue, blank, idle⟩ := hs.tracking.off (by simp [dark])
    rw [startWhenReady_of_ready s ready]
    refine ⟨⟨?_, fun _ => good, hs.generator.settling, fun asserted => ?_⟩,
      tracking_of_not_live (by simp [startSustain_sustain]) (by simpa using queue) (by simpa using blank)
        (by simpa using idle) (by simpa using hs.tracking.idle idle)⟩
    · simp [startSustain_sustain]
    · have released : (startSustain s).terminalReset = false := by
        simpa using hs.generator.released_of_supply (by simp [good])
      exact absurd (released.symm.trans asserted) (by decide)
  · rw [startWhenReady_of_not_ready s ready]
    exact hs

/-! ### The supply monitor -/

theorem supplyBelow_coherent (s : State) (stores : StoresSound s) (released : s.terminalReset = false) (hs : Coherent s) :
    Coherent (supplyBelow s) := by
  have ⟨⟨running, powered, settling, _⟩, tracking⟩ := hs
  cases state : s.sustain.supplyState with
  | low =>
    rw [supplyBelow_of_low s state]
    exact hs
  | settling =>
    rw [supplyBelow_of_settling s state]
    refine ⟨⟨running, fun lit => ?_, by simp, fun asserted => ?_⟩, tracking.of_same rfl rfl rfl rfl rfl⟩
    · exact absurd ((powered lit).symm.trans state) (by decide)
    · exact absurd (released.symm.trans asserted) (by decide)
  | good =>
    rw [supplyBelow_of_good s state]
    have stopped : s.sustain.settle.isSome = false := by simpa [state] using settling
    exact ⟨lose_generatorLegal _ running (by simp [stopped]) released,
      lose_tracking _ { stores with } (tracking.of_same rfl rfl rfl rfl rfl)⟩

theorem supplyAbove_coherent (s : State) (released : s.terminalReset = false) (hs : Coherent s) :
    Coherent (supplyAbove s) := by
  by_cases low : s.sustain.supplyState = .low
  · obtain ⟨⟨running, powered, -, -⟩, tracking⟩ := hs
    rw [supplyAbove_of_low s low]
    refine ⟨⟨running, fun lit => ?_, by simp, fun asserted => ?_⟩, tracking.of_same rfl rfl rfl rfl rfl⟩
    · exact absurd ((powered lit).symm.trans low) (by decide)
    · exact absurd (released.symm.trans asserted) (by decide)
  · rw [supplyAbove_of_not_low s low]
    exact hs

theorem compareSupply_coherent (s : State) (stores : StoresSound s) (released : s.terminalReset = false)
    (hs : Coherent s) : Coherent (compareSupply s) := by
  unfold compareSupply
  split
  · exact supplyBelow_coherent s stores released hs
  · split
    · exact supplyAbove_coherent s released hs
    · exact hs

theorem supplyMoves_coherent (millivolts : Nat) (s : State) (stores : StoresSound s) (hs : Coherent s) :
    Coherent (supplyMoves millivolts s) := by
  have moved : Coherent (s.withSustain { s.sustain with supply := millivolts }) := hs.withSustain _ rfl rfl rfl Iff.rfl
  unfold supplyMoves
  dsimp only
  split
  · exact moved
  · rename_i released
    exact compareSupply_coherent _ { stores with } (Bool.eq_false_iff.mpr released) moved

/-- The settle timer runs in SETTLING alone, on a DARK panel (R75, R76). -/
theorem settleExpires_coherent (s : State) (hs : Coherent s) : Coherent (settleExpires s) := by
  unfold settleExpires
  split
  · rename_i running
    refine startWhenReady_coherent _ ⟨⟨hs.generator.running, fun _ => rfl, by simp, fun asserted => ?_⟩,
      hs.tracking.of_same rfl rfl rfl rfl rfl⟩
    have settling := hs.generator.settling.mp running
    have released := hs.generator.released_of_supply (by simp [settling])
    exact absurd (released.symm.trans asserted) (by decide)
  · exact hs

theorem panelOn_coherent (s : State) (hs : Coherent s) : Coherent (panelOn s) :=
  startWhenReady_coherent _ (hs.withSustain _ rfl rfl rfl Iff.rfl)

/-! ### Cycles and windows -/

theorem cycleStarts_coherent (s : State) (stores : StoresSound s) (hs : Coherent s) : Coherent (cycleStarts s) := by
  by_cases dark : s.sustain.panelState = .dark
  · rw [cycleStarts, if_pos dark]
    exact hs
  · cases enabled : s.sustain.enable with
    | false =>
      have released := hs.generator.released_of_running dark
      rw [cycleStarts_of_off s dark enabled]
      exact ⟨lose_generatorLegal s hs.generator.running hs.generator.settling released,
        lose_tracking s stores hs.tracking⟩
    | true =>
      have cycle : s.sustain.cycle ≠ none := fun none => dark (hs.generator.running.mpr none)
      rw [cycleStarts_of_on s dark enabled]
      exact hs.withSustain _ rfl rfl rfl (by simp [cycle])

/-- The slot opens in a cycle in progress. -/
theorem openSlot_coherent (item : Option StrikeItem) (s : State) (running : s.sustain.panelState ≠ .dark)
    (hs : Coherent s) : Coherent (s.withSustain (openSlot item s.sustain)) := by
  have cycle : s.sustain.cycle ≠ none := fun none => running (hs.generator.running.mpr none)
  exact hs.withSustain _ rfl rfl rfl (by simp [openSlot, cycle])

theorem liveWindow_coherent (s : State) (stores : StoresSound s) (live : s.sustain.panelState = .live)
    (hs : Coherent s) : Coherent (liveWindow s) := by
  refine ⟨?_, liveWindow_tracking s stores live hs.tracking⟩
  cases head : s.strikes.items with
  | nil =>
    rw [liveWindow_of_empty s head]
    exact (openSlot_coherent none s (by simp [live]) hs).generator
  | cons item rest =>
    rw [liveWindow_of_head s item rest head]
    exact (openSlot_coherent (some item) s (by simp [live]) hs).generator.of_same rfl rfl

theorem primingWindow_coherent (s : State) (stores : StoresSound s) (priming : s.sustain.panelState = .priming)
    (hs : Coherent s) : Coherent (primingWindow s) := by
  have running : s.sustain.panelState ≠ .dark := by simp [priming]
  have started : GeneratorLegal (primed s) := by
    refine ⟨by simp [primed, openSlot], fun _ => hs.generator.powered running, hs.generator.settling, fun asserted => ?_⟩
    exact absurd ((hs.generator.released_of_running running).symm.trans asserted) (by decide)
  rw [primingWindow_eq]
  exact ⟨started.of_same (by simp) (by simp),
    activateScanner_tracking (primed s) { stores with lit := tableWf_nil _ _ } rfl (primed_tracking s priming hs.tracking)⟩

theorem windowOpens_coherent (s : State) (stores : StoresSound s) (hs : Coherent s) : Coherent (windowOpens s) := by
  by_cases divider : s.sustain.divider = 0
  · cases state : s.sustain.panelState with
    | dark =>
      rw [windowOpens_of_closed s (.inr state)]
      exact hs
    | priming =>
      rw [windowOpens_of_priming s divider state]
      exact primingWindow_coherent s stores state hs
    | live =>
      rw [windowOpens_of_live s divider state]
      exact liveWindow_coherent s stores state hs
  · rw [windowOpens_of_closed s (.inl divider)]
    exact hs

/-! ### Resets -/

theorem resetBlocks_coherent (s : State) : Coherent (resetBlocks s) := by
  refine ⟨⟨?_, ?_, ?_, ?_⟩, tracking_of_not_live ?_ ?_ ?_ ?_ ?_⟩ <;> simp [resetBlocks, State.reset]

theorem assertReset_coherent (s : State) : Coherent (assertReset s) := by
  obtain ⟨⟨running, powered, settling, -⟩, tracking⟩ := resetBlocks_coherent s
  exact ⟨⟨running, powered, settling, fun _ => ⟨rfl, rfl⟩⟩, tracking.of_same rfl rfl rfl rfl rfl⟩

theorem startRunning_coherent (s : State) (stores : StoresSound s) (released : s.terminalReset = false)
    (hs : Coherent s) : Coherent (startRunning s) :=
  compareSupply_coherent _ { stores with } released (hs.of_same (by constructor <;> rfl))

theorem releaseReset_coherent (s : State) (stores : StoresSound s) (hs : Coherent s) : Coherent (releaseReset s) := by
  unfold releaseReset
  split
  · obtain ⟨⟨running, powered, settling, -⟩, tracking⟩ := hs
    exact startRunning_coherent _ { stores with } rfl
      ⟨⟨running, powered, settling, fun asserted => (nomatch asserted)⟩, tracking.of_same rfl rfl rfl rfl rfl⟩
  · exact hs

/-- Power-on reset empties the shadow image of a panel that is not LIVE (R139). -/
theorem powerOn_coherent (s : State) (stores : StoresSound s) : Coherent (powerOn s) := by
  have sound := resetBlocks_storesSound s stores
  obtain ⟨generator, -⟩ := resetBlocks_coherent s
  refine startRunning_coherent _ { sound with shadow := tableWf_nil _ _, glyphs := tableWf_nil _ _ } rfl
    ⟨generator.of_same rfl rfl, tracking_of_not_live ?_ ?_ ?_ ?_ ?_⟩ <;> simp [resetBlocks, State.reset]

end Sys2Proof.Machine
end

section
/-! PROOFS. What the port, the touch panel, the station record and the cluster line leave alone of coherence, and the
invariant over every step. -/

namespace Sys2Proof.Machine

/-! ### The port and the touch panel -/

theorem whenTaken_coherent (f : State → State) (s : State) (hs : Coherent s) (hf : Coherent (f s)) :
    Coherent (whenTaken f s) := by
  unfold whenTaken
  split
  · exact hs
  · exact hf

theorem freePlaces_same (wasFull : Bool) (s : State) : SameCoherence s (freePlaces wasFull s) := by
  rcases freePlaces_cases wasFull s with e | e <;> rw [e] <;> constructor <;> rfl

theorem takeWord_same (w : Word) (s : State) : SameCoherence s (takeWord w s) := by
  unfold takeWord
  split <;> constructor <;> rfl

theorem readInput_same (s : State) : SameCoherence s (readInput s) := by
  unfold readInput
  dsimp only
  split
  · constructor <;> rfl
  · exact .trans (by constructor <;> rfl) (freePlaces_same _ _)

theorem readStatus_same (s : State) : SameCoherence s (readStatus s) := by
  unfold readStatus
  dsimp only
  split <;> constructor <;> rfl

theorem abandonHeld_same (ch : Channel) (s : State) : SameCoherence s (abandonHeld ch s) := by
  unfold abandonHeld
  split
  · exact .refl s
  · split <;> constructor <;> rfl

theorem clearLocal_same (s : State) : SameCoherence s (clearLocal s) :=
  (abandonHeld_same .localCh s).trans (by constructor <;> rfl)

theorem resumeLocal_same (s : State) : SameCoherence s (resumeLocal s) := by
  unfold resumeLocal
  split <;> constructor <;> rfl

theorem scan_same (horizontal vertical : BitVec 16) (s : State) : SameCoherence s (scan horizontal vertical s) := by
  unfold scan
  dsimp only
  split
  · constructor <;> rfl
  · split <;> constructor <;> simp

/-! ### The station record -/

theorem request_same (operation : Program) (s : State) : SameCoherence s (request operation s) := by
  rcases request_cases operation s with e | ⟨-, e⟩ <;> rw [e] <;> constructor <;> rfl

theorem programEnds_same (s : State) : SameCoherence s (programEnds s) := by
  unfold programEnds
  split <;> constructor <;> rfl

/-! ### The cluster line -/

theorem withLineIf_same (l : LineInterface) (s : State) : SameCoherence s (s.withLineIf l) := by
  constructor <;> rfl

theorem startCharacter_same (low : Nat) (s : State) : SameCoherence s (startCharacter low s) := by
  unfold startCharacter
  split
  · exact .refl s
  · exact withLineIf_same _ s

theorem acceptOrders_same (s : State) : SameCoherence s (acceptOrders s) := by
  unfold acceptOrders
  dsimp only
  split
  · exact withLineIf_same _ s
  · split <;> constructor <;> rfl

theorem giveEffect_same (s : State) : SameCoherence s (giveEffect s) := by
  constructor <;> simp

theorem acceptClear_same (s : State) : SameCoherence s (acceptClear s) := by
  have emptied : SameCoherence s ((abandonHeld .lineCh s).withLineChan (clearedChan .accept)) :=
    (abandonHeld_same .lineCh s).trans (by constructor <;> rfl)
  exact ((emptied.trans (giveEffect_same _)).trans (by constructor <;> rfl)).trans (freePlaces_same _ _)

theorem checkCharacter_same (r : Reception) (b : Byte) (s : State) : SameCoherence s (checkCharacter r b s) := by
  unfold checkCharacter
  split
  · exact withLineIf_same _ s
  · split
    · exact acceptOrders_same s
    · exact acceptClear_same s
    · exact withLineIf_same _ s

/-- A character changes the line interface alone, but for one in CHECK that ends a good frame (R120, R123). -/
theorem assemble_same (c : LineChar) (s : State) : SameCoherence s (assemble c s) := by
  unfold assemble
  dsimp only
  split
  · split
    · exact .refl s
    · exact withLineIf_same _ s
  · split
    · exact withLineIf_same _ s
    · split <;> exact withLineIf_same _ s
  · split
    · exact withLineIf_same _ s
    · split <;> exact withLineIf_same _ s
  · split
    · exact withLineIf_same _ s
    · split
      · exact withLineIf_same _ s
      · exact checkCharacter_same _ _ s

theorem arrive_same (c : LineChar) (s : State) : SameCoherence s (arrive c s) := by
  unfold arrive
  split
  · exact (withLineIf_same _ s).trans (assemble_same c _)
  · exact .refl s

theorem checkArrives_same (kind : FrameKind) (b : Byte) (s : State) : SameCoherence s (checkArrives kind b s) := by
  unfold checkArrives
  split
  · exact arrive_same _ s
  · exact .refl s

theorem composeReply_same (s : State) : SameCoherence s (composeReply s) := by
  unfold composeReply
  split
  · exact (withLineIf_same _ s).trans (freePlaces_same _ _)
  · exact .refl s
  · exact .refl s

theorem endReply_same (s : State) : SameCoherence s (endReply s) := by
  unfold endReply
  split
  · exact withLineIf_same _ s
  · exact .refl s

theorem lineHigh_same (s : State) : SameCoherence s (lineHigh s) := by
  unfold lineHigh
  split
  · exact withLineIf_same _ s
  · exact .refl s

/-! ### Every step -/

theorem directEffect_coherent (c : Instr) (s : State) (stores : StoresSound s) (hs : Coherent s) :
    Coherent (directEffect c s) := by
  have taken (f : State → State) (hf : Coherent (f s)) := whenTaken_coherent f s hs hf
  have same {t : State} (h : SameCoherence s t) := hs.of_same h
  cases c with
  | powerOnReset => exact powerOn_coherent s stores
  | terminalReset => exact assertReset_coherent s
  | terminalResetRelease => exact releaseReset_coherent s stores hs
  | supplyDroop millivolts | supplyRecover millivolts => exact supplyMoves_coherent millivolts s stores hs
  | settleTimerExpiry => exact settleExpires_coherent s hs
  | cycleStart => exact cycleStarts_coherent s stores hs
  | addressWindow => exact windowOpens_coherent s stores hs
  | panelOn => exact taken _ (panelOn_coherent s hs)
  | panelOff => exact taken _ (hs.withSustain _ rfl rfl rfl Iff.rfl)
  | order word => exact taken _ (same (takeWord_same word s))
  | input => exact same (readInput_same s)
  | status => exact same (readStatus_same s)
  | clearLocal => exact taken _ (same (clearLocal_same s))
  | resume => exact taken _ (same (resumeLocal_same s))
  | eventAck | eventEnable | recordSelect => exact taken _ (same (by constructor <;> rfl))
  | recordWrite | recordCommit | recordLock => exact taken _ (same (request_same _ s))
  | programmingOperationEnd => exact same (programEnds_same s)
  | scanEvent horizontal vertical => exact same (scan_same horizontal vertical s)
  | characterStart low => exact same (startCharacter_same low s)
  | characterArrival samples => exact same (arrive_same _ s)
  | orders check | clear check | poll check => exact same (checkArrives_same _ check s)
  | turnaroundGapExpiry => exact same (composeReply_same s)
  | replySent => exact same (endReply_same s)
  | lineGoesHigh => exact same (lineHigh_same s)
  | _ => exact hs

/-- A timer that runs down still runs, and a cycle in progress stays so. -/
theorem runsDown_coherent (s t : State) (hs : Coherent s) (h : RunsDown s t) : Coherent t := by
  cases h with
  | cycle c running => exact hs.withSustain _ rfl rfl rfl (by simp [running])
  | settle n running => exact hs.withSustain _ rfl rfl (by simp [running]) Iff.rfl
  | _ => exact hs.of_same (by constructor <;> rfl)

/-- The coherence invariant and the stores' canonical form, on which it rests, are kept together. -/
theorem coherent_keptByParts : KeptByParts fun s => StoresSound s ∧ Coherent s where
  queue s q := fun ⟨stores, hs⟩ =>
    ⟨storesSound_keptByParts.queue s q stores, hs.of_same (by constructor <;> rfl)⟩
  event s e := fun ⟨stores, hs⟩ =>
    ⟨storesSound_keptByParts.event s e stores, hs.of_same (by constructor <;> rfl)⟩
  ends s := fun ⟨stores, hs⟩ => ⟨storesSound_keptByParts.ends s stores, hs.of_same (by constructor <;> simp)⟩
  own s i := fun ⟨stores, hs⟩ due =>
    ⟨storesSound_keptByParts.own s i stores due, runInternal_coherent i s stores due hs⟩
  direct s c := fun ⟨stores, hs⟩ outside =>
    ⟨storesSound_keptByParts.direct s c stores outside, directEffect_coherent c s stores hs⟩
  runsDown s t := fun ⟨stores, hs⟩ h => ⟨storesSound_keptByParts.runsDown s t stores h, runsDown_coherent s t hs h⟩

/-- Settles O41, by the induction over the parts of a step. -/
theorem panelFollowsShadowThroughEveryStep : Obligations.PanelFollowsShadowThroughEveryStep := by
  intro s t memory program legal current follows e
  have stores : StoresSound s := (storesSound_iff s).mpr ⟨memory, program⟩
  have coherent : Coherent s := (coherent_iff s).mpr ⟨legal, current, follows⟩
  obtain ⟨-, kept⟩ := coherent_keptByParts.step s t ⟨stores, coherent⟩ e
  exact (coherent_iff t).mp kept

end Sys2Proof.Machine
end

section
/-! PROOFS. TAKE and GIVE at their grants: what each finds of takeover, and what it moves. -/

namespace Sys2Proof.Machine

/-! ### The two effects -/

/-- A TAKE under takeover changes nothing (R105). -/
theorem takeEffect_of_taken (s : State) (taken : s.supervision.takeover = true) : takeEffect s = s := if_pos taken

/-- A TAKE that begins takeover holds a local channel in ACCEPT (R105). -/
theorem takeEffect_of_free (s : State) (free : s.supervision.takeover = false) :
    takeEffect s =
      raiseFlag .takeover
        ((s.withSupervision { s.supervision with takeover := true, resumeAwaited := false }).withLocalChan
          { s.localChan with
            response := if s.localChan.response = .accept then .hold else s.localChan.response }) :=
  if_neg (by simp [free])

/-- A GIVE that ends takeover has a local channel in HOLD await RESUME (R106). -/
theorem giveEffect_of_taken (s : State) (taken : s.supervision.takeover = true) :
    giveEffect s =
      raiseFlag .takeover
        (s.withSupervision
          { s.supervision with takeover := false, resumeAwaited := s.localChan.response == .hold }) :=
  if_pos taken

/-- A GIVE without takeover is ignored (R106). -/
theorem giveEffect_of_free (s : State) (free : s.supervision.takeover = false) : giveEffect s = s :=
  if_neg (by simp [free])

/-! ### The two units -/

/-- A SUPERVISE whose function has nothing to do completes with no effect (R105, R106). -/
theorem superviseUnit_of_ignored (f : Supervise) (s : State)
    (ignored : superviseEffect f (grantBegun .lineCh s) = grantBegun .lineCh s) :
    let t := closeEvent (superviseUnit .lineCh f (grantBegun .lineCh s))
    OnlyChanges [.arbiter, .lineChan, .flags] s t ∧ FlagsAfter [] s t := by
  intro t
  have unit : superviseUnit .lineCh f (grantBegun .lineCh s) = completeOrder .lineCh (grantBegun .lineCh s) := by
    rw [superviseUnit, ignored]
  simp only [t, unit]
  exact ⟨((onlyChanges_grantBegun .lineCh s).trans (onlyChanges_withChan .lineCh _ _)).trans (onlyChanges_closeEvent _),
    (FlagsAfter.of_flags (by simp)).closed⟩

/-- A SUPERVISE whose function raises TAKEOVER raises no other flag (R104). -/
theorem superviseUnit_raisesTakeover (f : Supervise) (s : State)
    (raises : (superviseEffect f (grantBegun .lineCh s)).port.flags =
      (raiseFlag .takeover (grantBegun .lineCh s)).port.flags) :
    FlagsAfter [.takeover] s (closeEvent (superviseUnit .lineCh f (grantBegun .lineCh s))) := by
  have port : (superviseUnit .lineCh f (grantBegun .lineCh s)).port = (superviseEffect f (grantBegun .lineCh s)).port := by
    simp [superviseUnit]
  refine FlagsAfter.closed (.of_raised ?_)
  rw [port, raises]
  simp [raiseFlag]

/-- Settles O43: each unit finds takeover in force or not, and either moves it or does nothing. -/
theorem takeAndGiveMoveTakeover : Obligations.TakeAndGiveMoveTakeover := by
  intro s
  refine ⟨fun granted => ?_, fun granted => ?_⟩
  · obtain ⟨order, frame, -⟩ := superviseUnit_closed .take s
    refine ⟨_, exec_supervise_granted s _ granted, order, fun taken => ?_, fun free => ?_⟩
    · exact superviseUnit_of_ignored .take s (takeEffect_of_taken _ (by simpa using taken))
    · have effect := takeEffect_of_free (grantBegun .lineCh s) (by simpa using free)
      refine ⟨?_, ?_, frame.mono (by decide), superviseUnit_raisesTakeover .take s ?_⟩
      · simp [superviseUnit, superviseEffect, effect]
      · simp [superviseUnit, superviseEffect, effect, completeOrder]
      · rw [superviseEffect, effect]
        rfl
  · obtain ⟨order, frame, -⟩ := superviseUnit_closed .give s
    refine ⟨_, exec_supervise_granted s _ granted, order, fun free => ?_, fun taken => ?_⟩
    · exact superviseUnit_of_ignored .give s (giveEffect_of_free _ (by simpa using free))
    · have effect := giveEffect_of_taken (grantBegun .lineCh s) (by simpa using taken)
      refine ⟨?_, ?_, frame.mono (by decide), superviseUnit_raisesTakeover .give s ?_⟩
      · simp [superviseUnit, superviseEffect, effect]
      · simp [superviseUnit, superviseEffect, effect]
        rfl
      · rw [superviseEffect, effect]
        rfl

end Sys2Proof.Machine
end

section
/-! PROOFS. The channels' response states: what leaves them as they stand, and what the part's own steps keep of R104's table. -/

namespace Sys2Proof.Machine

/-! ### Response states that stay -/

/-- A HALTED channel holds no word and no order (R54). -/
def EmptyWhenHalted (c : Chan) : Prop := c.response = .halted → c.fifo = [] ∧ c.order = none

/-- A channel stays in its response state, and stays empty where it is HALTED. -/
structure StaysIn (c d : Chan) : Prop where
  response : d.response = c.response
  halted : EmptyWhenHalted c → EmptyWhenHalted d

@[refl, simp] theorem StaysIn.refl (c : Chan) : StaysIn c c := ⟨rfl, id⟩

theorem StaysIn.trans {c d e : Chan} (h : StaysIn c d) (k : StaysIn d e) : StaysIn c e :=
  ⟨k.response.trans h.response, fun empty => k.halted (h.halted empty)⟩

/-- A channel that is not HALTED may take words and orders. -/
theorem StaysIn.of_not_halted {c d : Chan} (running : c.response ≠ .halted) (response : d.response = c.response) :
    StaysIn c d :=
  ⟨response, fun _ halted => absurd (response ▸ halted) running⟩

theorem StaysIn.of_accept {c d : Chan} (accept : c.response = .accept) (response : d.response = c.response) :
    StaysIn c d :=
  .of_not_halted (by simp [accept]) response

/-- A channel may lose its order. -/
theorem StaysIn.completed (c : Chan) : StaysIn c { c with order := none } :=
  ⟨rfl, fun empty halted => ⟨(empty halted).1, rfl⟩⟩

/-- Both channels stay in their response states, and takeover and resume-awaited stand as before. -/
structure SameResponses (s t : State) : Prop where
  line : StaysIn s.lineChan t.lineChan
  loc : StaysIn s.localChan t.localChan
  takeover : t.supervision.takeover = s.supervision.takeover
  resumeAwaited : t.supervision.resumeAwaited = s.supervision.resumeAwaited

namespace SameResponses

theorem refl (s : State) : SameResponses s s := by constructor <;> rfl

theorem trans {s t u : State} (h : SameResponses s t) (k : SameResponses t u) : SameResponses s u :=
  ⟨h.line.trans k.line, h.loc.trans k.loc, k.takeover.trans h.takeover, k.resumeAwaited.trans h.resumeAwaited⟩

theorem withChan {s : State} {ch : Channel} {c : Chan} (h : StaysIn (s.chan ch) c) :
    SameResponses s (s.withChan ch c) := by
  cases ch with
  | lineCh => exact ⟨h, .refl _, rfl, rfl⟩
  | localCh => exact ⟨.refl _, h, rfl, rfl⟩

/-- R104's table and R54's rule hold as long as the response states stay. -/
theorem legal {s t : State} (h : SameResponses s t) (hs : ResponsesLegal s) : ResponsesLegal t := by
  obtain ⟨table, notHold, lineHalted, localHalted⟩ := hs
  refine ⟨?_, ?_, h.line.halted lineHalted, h.loc.halted localHalted⟩
  · rw [h.loc.response, h.takeover, h.resumeAwaited]
    exact table
  · rw [h.line.response]
    exact notHold

end SameResponses

/-! ### Decoders and dropped rows -/

/-- A decoder acts in ACCEPT alone (R50). -/
theorem accept_of_decodeDue (ch : Channel) (s : State) (due : decodeDue ch s = true) :
    (s.chan ch).response = .accept := by
  refine Classical.byContradiction fun other => ?_
  simp [decodeDue, reached, other] at due

/-- An order that is reached leaves its channel in the response state it was in (R50). -/
theorem decoded_response (ch : Channel) (area : Rect) (kind : OrderKind) (head : Word) (args : List Word) (c : Chan) :
    (decoded ch area kind head args c).response = c.response := by
  cases kind with
  | line => simp only [decoded, reachLine, startRecord, popOrder, apply_ite Chan.response, ite_self]
  | text => simp only [decoded, reachText, startRecord, popOrder, apply_ite Chan.response, ite_self]
  | wipe =>
    show (reachWipe ch area c).response = c.response
    unfold reachWipe
    split <;> rfl
  | _ => rfl

/-- A channel that halts is empty, and R104's table holds of a local one (R54, R104). -/
theorem haltChannel_legal (ch : Channel) (cause : HaltCause) (s : State) (accept : (s.chan ch).response = .accept)
    (hs : ResponsesLegal s) : ResponsesLegal (haltChannel ch cause s) := by
  obtain ⟨table, notHold, lineHalted, localHalted⟩ := hs
  cases ch with
  | lineCh => exact ⟨table, nofun, fun _ => ⟨rfl, rfl⟩, localHalted⟩
  | localCh =>
    have clear : s.supervision.takeover = false ∧ s.supervision.resumeAwaited = false := by
      have accept' : s.localChan.response = .accept := accept
      simpa [accept', takeoverRelation] using table
    refine ⟨?_, notHold, lineHalted, fun _ => ⟨rfl, rfl⟩⟩
    show takeoverRelation .halted s.supervision.takeover s.supervision.resumeAwaited = true
    rw [clear.2]
    rfl

theorem decodeStep_legal (ch : Channel) (s : State) (due : decodeDue ch s = true) (hs : ResponsesLegal s) :
    ResponsesLegal (decodeStep ch s) := by
  have accept := accept_of_decodeDue ch s due
  rcases decodeStep_cases ch s with ⟨-, e⟩ | ⟨cause, -, e⟩ | ⟨kind, head, args, -, e⟩ <;> rw [e]
  · exact hs
  · exact haltChannel_legal ch cause s accept hs
  · exact (SameResponses.withChan (.of_accept accept (decoded_response ..))).legal hs

theorem droppedRowHandled_response (c : Chan) : (droppedRowHandled c).response = c.response := by
  unfold droppedRowHandled
  split <;> rfl

theorem droppedRowStep_sameResponses (ch : Channel) (s : State) (due : droppedRowDue ch s = true) :
    SameResponses s (droppedRowStep ch s) := by
  have accept : (s.chan ch).response = .accept := eq_of_beq ((Bool.and_eq_true _ _).mp due).1
  exact .withChan (.of_accept accept (droppedRowHandled_response _))

/-! ### Renders -/

/-- The render of a span that was held when its channel halted finds no order to move on (R5, R54). -/
theorem spanRendered_staysIn (c : Chan) : StaysIn c (spanRendered c) := by
  refine ⟨spanRendered_response c, fun empty halted => ?_⟩
  rw [spanRendered_response] at halted
  obtain ⟨fifo, order⟩ := empty halted
  have idle : spanRendered c = c := by simp only [spanRendered, order]
  rw [idle]
  exact ⟨fifo, order⟩

theorem renderSpan_sameResponses (h : Held) (s : State) : SameResponses s (renderSpan h s) := by
  obtain ⟨own, other⟩ := renderSpan_chan h s
  have stays (ch : Channel) : StaysIn (s.chan ch) ((renderSpan h s).chan ch) := by
    by_cases here : ch = h.channel
    · rw [here, own]
      exact spanRendered_staysIn _
    · rw [other ch here]
  exact ⟨stays .lineCh, stays .localCh, by simp, by simp⟩

theorem renderHeld_sameResponses (s : State) : SameResponses s (renderHeld s) := by
  cases held : s.engine.held with
  | none =>
    rw [renderHeld_of_none s held]
    exact .refl s
  | some h =>
    rw [renderHeld_of_some s h held]
    exact renderSpan_sameResponses h s

theorem placeSpan_sameResponses (h : Held) (s : State) : SameResponses s (placeSpan h s) := by
  rcases placeSpan_cases h s with ⟨-, e⟩ | ⟨-, e⟩ <;> rw [e]
  · exact renderSpan_sameResponses h s
  · constructor <;> rfl

/-! ### Takeover -/

/-- A TAKE moves the local state along R105's table. -/
theorem takeEffect_legal (s : State) (hs : ResponsesLegal s) : ResponsesLegal (takeEffect s) := by
  cases taken : s.supervision.takeover with
  | true =>
    rw [takeEffect_of_taken s taken]
    exact hs
  | false =>
    obtain ⟨-, notHold, lineHalted, localHalted⟩ := hs
    rw [takeEffect_of_free s taken]
    cases response : s.localChan.response with
    | accept | hold => exact ⟨rfl, notHold, lineHalted, nofun⟩
    | halted => exact ⟨rfl, notHold, lineHalted, fun _ => localHalted response⟩

/-- A GIVE moves the local state along R106's table. -/
theorem giveEffect_legal (s : State) (hs : ResponsesLegal s) : ResponsesLegal (giveEffect s) := by
  cases taken : s.supervision.takeover with
  | false =>
    rw [giveEffect_of_free s taken]
    exact hs
  | true =>
    have running := local_not_accept_of_takeover s hs taken
    obtain ⟨-, notHold, lineHalted, localHalted⟩ := hs
    rw [giveEffect_of_taken s taken]
    refine ⟨?_, notHold, lineHalted, localHalted⟩
    show takeoverRelation s.localChan.response false (s.localChan.response == .hold) = true
    cases response : s.localChan.response with
    | accept => exact absurd response running
    | hold | halted => rfl

theorem superviseEffect_legal (f : Supervise) (s : State) (hs : ResponsesLegal s) :
    ResponsesLegal (superviseEffect f s) := by
  cases f with
  | take => exact takeEffect_legal s hs
  | give => exact giveEffect_legal s hs
  | area | lock | route | timing => exact hs

/-! ### Units and grants -/

theorem completeOrder_sameResponses (ch : Channel) (s : State) : SameResponses s (completeOrder ch s) :=
  .withChan (.completed _)

/-- A GLYPH unit takes its words, or halts the local channel (R38). -/
theorem glyphUnit_legal (ch : Channel) (slot : Byte) (s : State) (accept : (s.chan ch).response = .accept)
    (hs : ResponsesLegal s) : ResponsesLegal (glyphUnit ch slot s) := by
  unfold glyphUnit
  split
  · exact haltChannel_legal ch _ s accept hs
  · have engine (e : Engine) : SameResponses s (s.withEngine e) := by constructor <;> rfl
    refine ((engine _).trans (.withChan ?_)).legal hs
    rw [State.withEngine_chan]
    exact .of_accept accept rfl

theorem wipeUnit_sameResponses (ch : Channel) (s : State) (accept : (s.chan ch).response = .accept) :
    SameResponses s (wipeUnit ch s) := by
  unfold wipeUnit
  split
  · refine .withChan (.of_accept accept ?_)
    rfl
  · have wiped : SameResponses s (fullWipe s) := by
      unfold fullWipe
      split <;> constructor <;> rfl
    exact wiped.trans (completeOrder_sameResponses ch _)

theorem passUnit_sameResponses (ch : Channel) (payload : BitVec 12) (s : State) :
    SameResponses s (passUnit ch payload s) := by
  unfold passUnit
  split
  · exact .trans (by constructor <;> simp) (completeOrder_sameResponses .lineCh _)
  · exact .trans (by constructor <;> simp) (completeOrder_sameResponses .localCh _)

theorem repaintUnit_sameResponses (ch : Channel) (s : State) : SameResponses s (repaintUnit ch s) := by
  unfold repaintUnit
  refine .trans ?_ (completeOrder_sameResponses ch _)
  split
  · constructor <;> simp
  · exact .refl s

/-- Of the units of a channel in ACCEPT only a refused GLYPH halts it, and only TAKE and GIVE move takeover (R38, R104). -/
theorem carryUnit_legal (ch : Channel) (s : State) (accept : (s.chan ch).response = .accept) (hs : ResponsesLegal s) :
    ResponsesLegal (carryUnit ch s) := by
  unfold carryUnit
  split
  · exact glyphUnit_legal ch _ s accept hs
  · exact (wipeUnit_sameResponses ch s accept).legal hs
  · exact (passUnit_sameResponses ch _ s).legal hs
  · exact (completeOrder_sameResponses ch _).legal (superviseEffect_legal _ s hs)
  · exact (repaintUnit_sameResponses ch s).legal hs
  · exact hs

/-- The grant of the piece that a channel presents (R4, R6). -/
theorem grantTo_legal (ch : Channel) (s : State) (presented : presents s ch = true) (hs : ResponsesLegal s) :
    ResponsesLegal (grantTo ch s) := by
  have accept : ((s.withEngine { s.engine with arbiter := ch }).chan ch).response = .accept := by
    rw [State.withEngine_chan]
    exact response_of_presents s ch presented
  rcases grantTo_cases ch s with ⟨-, e⟩ | ⟨-, -, e⟩ | ⟨-, p, c, ready, e⟩ <;> rw [e]
  · exact carryUnit_legal ch _ accept hs
  · exact hs
  · obtain ⟨-, response, -⟩ := formSpan_frame _ _ _ _ ready
    exact ((SameResponses.withChan (.of_accept accept response)).trans (placeSpan_sameResponses _ _)).legal hs

theorem runInternal_legal (i : Internal) (s : State) (due : isDue i s = true) (hs : ResponsesLegal s) :
    ResponsesLegal (runInternal i s) := by
  cases i with
  | decode ch => exact decodeStep_legal ch s due hs
  | droppedRow ch => exact (droppedRowStep_sameResponses ch s due).legal hs
  | render => exact (renderHeld_sameResponses s).legal hs
  | grant =>
    show ResponsesLegal (grantStep s)
    unfold grantStep
    split
    · exact hs
    · exact grantTo_legal _ s (presents_of_grantee s _ ‹_›) hs
  | grantLine => exact grantTo_legal .lineCh s ((Bool.and_eq_true _ _).mp due).2 hs
  | restore =>
    show ResponsesLegal (restoreStep s)
    exact SameResponses.legal (by constructor <;> simp) hs

end Sys2Proof.Machine
end

section
/-! PROOFS. What the direct effects of the commands keep of R104's table, and the invariant over every step. -/

namespace Sys2Proof.Machine

/-! ### The sustain, the supply and the resets -/

theorem startWhenReady_sameResponses (s : State) : SameResponses s (startWhenReady s) := by
  constructor <;> simp

/-- A held span renders at a loss (R9). -/
theorem lose_sameResponses (s : State) : SameResponses s (lose s) := by
  rcases lose_cases s with ⟨-, e⟩ | ⟨-, e⟩ <;> rw [e]
  · exact .refl s
  · exact .trans (by constructor <;> rfl) (renderHeld_sameResponses _)

theorem supplyBelow_sameResponses (s : State) : SameResponses s (supplyBelow s) := by
  unfold supplyBelow
  split
  · exact .refl s
  · constructor <;> rfl
  · exact .trans (by constructor <;> rfl) (lose_sameResponses _)

theorem compareSupply_sameResponses (s : State) : SameResponses s (compareSupply s) := by
  unfold compareSupply
  split
  · exact supplyBelow_sameResponses s
  · split
    · constructor <;> simp
    · exact .refl s

theorem supplyMoves_sameResponses (millivolts : Nat) (s : State) : SameResponses s (supplyMoves millivolts s) := by
  unfold supplyMoves
  dsimp only
  split
  · constructor <;> rfl
  · exact .trans (by constructor <;> rfl) (compareSupply_sameResponses _)

theorem startRunning_sameResponses (s : State) : SameResponses s (startRunning s) :=
  .trans (by constructor <;> rfl) (compareSupply_sameResponses _)

theorem settleExpires_sameResponses (s : State) : SameResponses s (settleExpires s) := by
  unfold settleExpires
  split
  · exact .trans (by constructor <;> rfl) (startWhenReady_sameResponses _)
  · exact .refl s

theorem cycleStarts_sameResponses (s : State) : SameResponses s (cycleStarts s) := by
  unfold cycleStarts
  split
  · exact .refl s
  · split
    · exact lose_sameResponses s
    · constructor <;> rfl

theorem windowOpens_sameResponses (s : State) : SameResponses s (windowOpens s) := by
  unfold windowOpens
  split
  · exact .refl s
  · split
    · exact .refl s
    · unfold primingWindow
      constructor <;> simp
    · unfold liveWindow
      split <;> constructor <;> rfl

/-- Both resets leave both channels idle in ACCEPT with takeover and resume-awaited clear (R58, R104). -/
theorem resetBlocks_legal (s : State) : ResponsesLegal (resetBlocks s) :=
  ⟨rfl, nofun, nofun, nofun⟩

theorem powerOn_legal (s : State) : ResponsesLegal (powerOn s) :=
  (startRunning_sameResponses _).legal (resetBlocks_legal s)

theorem releaseReset_sameResponses (s : State) : SameResponses s (releaseReset s) := by
  unfold releaseReset
  split
  · exact .trans (by constructor <;> rfl) (startRunning_sameResponses _)
  · exact .refl s

/-! ### The port, the touch panel and the station record -/

theorem whenTaken_legal (f : State → State) (s : State) (hs : ResponsesLegal s) (hf : ResponsesLegal (f s)) :
    ResponsesLegal (whenTaken f s) := by
  unfold whenTaken
  split
  · exact hs
  · exact hf

theorem freePlaces_sameResponses (wasFull : Bool) (s : State) : SameResponses s (freePlaces wasFull s) := by
  rcases freePlaces_cases wasFull s with e | e <;> rw [e] <;> constructor <;> rfl

/-- A word is taken in ACCEPT alone (R55). -/
theorem takeWord_sameResponses (w : Word) (s : State) : SameResponses s (takeWord w s) := by
  unfold takeWord
  split
  · rename_i taken
    exact .withChan (ch := .localCh) (.of_accept taken.1 rfl)
  · constructor <;> rfl

theorem readInput_sameResponses (s : State) : SameResponses s (readInput s) := by
  unfold readInput
  dsimp only
  split
  · constructor <;> rfl
  · exact .trans (by constructor <;> rfl) (freePlaces_sameResponses _ _)

theorem readStatus_sameResponses (s : State) : SameResponses s (readStatus s) := by
  unfold readStatus
  dsimp only
  split <;> constructor <;> rfl

/-- CLEAR-LOCAL leaves the local channel in HOLD exactly under takeover (R56). -/
theorem clearLocal_legal (s : State) (hs : ResponsesLegal s) : ResponsesLegal (clearLocal s) := by
  have abandoned : ResponsesLegal (abandonHeld .localCh s) := SameResponses.legal (by constructor <;> simp) hs
  obtain ⟨-, notHold, lineHalted, -⟩ := abandoned
  refine ⟨?_, notHold, lineHalted, fun _ => ⟨rfl, rfl⟩⟩
  show takeoverRelation (if (abandonHeld .localCh s).supervision.takeover then .hold else .accept)
    (abandonHeld .localCh s).supervision.takeover false = true
  cases (abandonHeld .localCh s).supervision.takeover <;> rfl

/-- RESUME returns a channel that awaits it to ACCEPT with both flags clear (R107). -/
theorem resumeLocal_legal (s : State) (hs : ResponsesLegal s) : ResponsesLegal (resumeLocal s) := by
  unfold resumeLocal
  split
  · rename_i waits
    obtain ⟨-, free, -⟩ := waits
    obtain ⟨-, notHold, lineHalted, -⟩ := hs
    refine ⟨?_, notHold, lineHalted, nofun⟩
    show takeoverRelation .accept s.supervision.takeover false = true
    rw [free]
    rfl
  · exact hs

theorem scan_sameResponses (horizontal vertical : BitVec 16) (s : State) :
    SameResponses s (scan horizontal vertical s) := by
  unfold scan
  dsimp only
  split
  · constructor <;> rfl
  · split <;> constructor <;> simp

theorem request_sameResponses (operation : Program) (s : State) : SameResponses s (request operation s) := by
  rcases request_cases operation s with e | ⟨-, e⟩ <;> rw [e] <;> constructor <;> rfl

theorem programEnds_sameResponses (s : State) : SameResponses s (programEnds s) := by
  unfold programEnds
  split <;> constructor <;> rfl

/-! ### The cluster line -/

theorem withLineIf_sameResponses (l : LineInterface) (s : State) : SameResponses s (s.withLineIf l) := by
  constructor <;> rfl

theorem startCharacter_sameResponses (low : Nat) (s : State) : SameResponses s (startCharacter low s) := by
  unfold startCharacter
  split
  · exact .refl s
  · exact withLineIf_sameResponses _ s

/-- A HALTED line channel takes no words (R123). -/
theorem acceptOrders_sameResponses (s : State) : SameResponses s (acceptOrders s) := by
  unfold acceptOrders
  dsimp only
  split
  · exact withLineIf_sameResponses _ s
  · rename_i running
    split
    · exact withLineIf_sameResponses _ s
    · exact ⟨.of_not_halted running rfl, .refl _, rfl, rfl⟩

/-- A CLEAR frame empties the line channel, and acts on the local one as a GIVE does (R57, R106). -/
theorem acceptClear_legal (s : State) (hs : ResponsesLegal s) : ResponsesLegal (acceptClear s) := by
  have abandoned : ResponsesLegal (abandonHeld .lineCh s) := SameResponses.legal (by constructor <;> simp) hs
  obtain ⟨table, -, -, localHalted⟩ := abandoned
  have given := giveEffect_legal ((abandonHeld .lineCh s).withLineChan (clearedChan .accept))
    ⟨table, nofun, nofun, localHalted⟩
  exact (SameResponses.trans (by constructor <;> rfl) (freePlaces_sameResponses _ _)).legal given

theorem checkCharacter_legal (r : Reception) (b : Byte) (s : State) (hs : ResponsesLegal s) :
    ResponsesLegal (checkCharacter r b s) := by
  unfold checkCharacter
  split
  · exact hs
  · split
    · exact (acceptOrders_sameResponses s).legal hs
    · exact acceptClear_legal s hs
    · exact hs

/-- A character changes the line interface alone, unless it is the check character of a frame in CHECK (R120). -/
theorem assemble_cases (c : LineChar) (s : State) :
    (∃ l, assemble c s = s.withLineIf l) ∨ ∃ r, assemble c s = checkCharacter r c.data s := by
  unfold assemble
  dsimp only
  split
  · split
    · exact .inl ⟨s.lineIf, rfl⟩
    · exact .inl ⟨_, rfl⟩
  · split
    · exact .inl ⟨_, rfl⟩
    · split <;> exact .inl ⟨_, rfl⟩
  · split
    · exact .inl ⟨_, rfl⟩
    · split <;> exact .inl ⟨_, rfl⟩
  · split
    · exact .inl ⟨_, rfl⟩
    · split
      · exact .inl ⟨_, rfl⟩
      · exact .inr ⟨_, rfl⟩

theorem assemble_legal (c : LineChar) (s : State) (hs : ResponsesLegal s) : ResponsesLegal (assemble c s) := by
  rcases assemble_cases c s with ⟨l, e⟩ | ⟨r, e⟩ <;> rw [e]
  · exact hs
  · exact checkCharacter_legal r c.data s hs

theorem arrive_legal (c : LineChar) (s : State) (hs : ResponsesLegal s) : ResponsesLegal (arrive c s) := by
  unfold arrive
  split
  · exact assemble_legal c _ ((withLineIf_sameResponses _ s).legal hs)
  · exact hs

theorem checkArrives_legal (kind : FrameKind) (b : Byte) (s : State) (hs : ResponsesLegal s) :
    ResponsesLegal (checkArrives kind b s) := by
  unfold checkArrives
  split
  · exact arrive_legal _ s hs
  · exact hs

theorem composeReply_sameResponses (s : State) : SameResponses s (composeReply s) := by
  unfold composeReply
  split
  · exact (withLineIf_sameResponses _ s).trans (freePlaces_sameResponses _ _)
  · exact .refl s
  · exact .refl s

theorem endReply_sameResponses (s : State) : SameResponses s (endReply s) := by
  unfold endReply
  split
  · exact withLineIf_sameResponses _ s
  · exact .refl s

theorem lineHigh_sameResponses (s : State) : SameResponses s (lineHigh s) := by
  unfold lineHigh
  split
  · exact withLineIf_sameResponses _ s
  · exact .refl s

/-! ### Every step -/

/-- Of the direct effects the resets, CLEAR-LOCAL, RESUME and a CLEAR frame move the local state, along R104's table. -/
theorem directEffect_legal (c : Instr) (s : State) (hs : ResponsesLegal s) : ResponsesLegal (directEffect c s) := by
  have taken (f : State → State) (hf : ResponsesLegal (f s)) := whenTaken_legal f s hs hf
  have same {t : State} (h : SameResponses s t) : ResponsesLegal t := h.legal hs
  cases c with
  | powerOnReset => exact powerOn_legal s
  | terminalReset => exact resetBlocks_legal s
  | clearLocal => exact taken _ (clearLocal_legal s hs)
  | resume => exact taken _ (resumeLocal_legal s hs)
  | characterArrival samples => exact arrive_legal _ s hs
  | orders check | clear check | poll check => exact checkArrives_legal _ check s hs
  | terminalResetRelease => exact same (releaseReset_sameResponses s)
  | supplyDroop millivolts | supplyRecover millivolts => exact same (supplyMoves_sameResponses millivolts s)
  | settleTimerExpiry => exact same (settleExpires_sameResponses s)
  | cycleStart => exact same (cycleStarts_sameResponses s)
  | addressWindow => exact same (windowOpens_sameResponses s)
  | order word => exact taken _ (same (takeWord_sameResponses word s))
  | input => exact same (readInput_sameResponses s)
  | status => exact same (readStatus_sameResponses s)
  | panelOn => exact taken _ (same (.trans (by constructor <;> rfl) (startWhenReady_sameResponses _)))
  | eventAck | eventEnable | panelOff | recordSelect => exact taken _ (same (by constructor <;> rfl))
  | recordWrite | recordCommit | recordLock => exact taken _ (same (request_sameResponses _ s))
  | programmingOperationEnd => exact same (programEnds_sameResponses s)
  | scanEvent horizontal vertical => exact same (scan_sameResponses horizontal vertical s)
  | characterStart low => exact same (startCharacter_sameResponses low s)
  | turnaroundGapExpiry => exact same (composeReply_sameResponses s)
  | replySent => exact same (endReply_sameResponses s)
  | lineGoesHigh => exact same (lineHigh_sameResponses s)
  | _ => exact hs

theorem responsesLegal_keptByParts : KeptByParts ResponsesLegal where
  queue _ _ hs := hs
  event _ _ hs := hs
  ends _ hs := SameResponses.legal (by constructor <;> simp) hs
  own s i hs due := runInternal_legal i s due hs
  direct s c hs _ := directEffect_legal c s hs
  runsDown _ _ hs h := by cases h <;> exact hs

/-- Settles O46, by the induction over the parts of a step. -/
theorem takeoverTableIsKept : Obligations.TakeoverTableIsKept :=
  fun s t legal e => responsesLegal_keptByParts.step s t legal e

end Sys2Proof.Machine
end

section
/-! PROOFS. The scan result: the blocked beams of an axis in order, when they are one run, and the beam that an axis names. -/

namespace Sys2Proof.Machine

/-! ### The blocked beams in order -/

theorem mem_blockedBeams {sample : BitVec 16} {j : Nat} :
    j ∈ blockedBeams sample ↔ j < 16 ∧ sample.getLsbD j = true := by
  simp [blockedBeams]

theorem blockedBeams_pairwise (sample : BitVec 16) : (blockedBeams sample).Pairwise (· < ·) :=
  List.pairwise_lt_range.filter _

theorem blockedBeams_eq_nil_iff {sample : BitVec 16} : blockedBeams sample = [] ↔ sample = 0 := by
  constructor
  · intro empty
    refine BitVec.eq_of_getLsbD_eq fun j hj => ?_
    have clear : j ∉ blockedBeams sample := by simp [empty]
    simpa [mem_blockedBeams, hj] using clear
  · rintro rfl
    decide

/-- The ends of an ascending list lie at least as far apart as it has steps, and no farther only when it skips no number: this
is how the model tells a run by its two ends. -/
theorem ascending_ends (first : Nat) (rest : List Nat) (ascending : (first :: rest).Pairwise (· < ·)) :
    let last := (first :: rest).getLast (by simp)
    first + rest.length ≤ last ∧
      (last = first + rest.length → first :: rest = List.range' first (rest.length + 1)) := by
  induction rest generalizing first with
  | nil => simp
  | cons second rest ih =>
    obtain ⟨below, tail⟩ := List.pairwise_cons.1 ascending
    have step : first < second := below second (by simp)
    obtain ⟨apart, run⟩ := ih second tail
    rw [List.getLast_cons (by simp)]
    refine ⟨by simp only [List.length_cons]; omega, fun ends => ?_⟩
    simp only [List.length_cons] at ends
    obtain rfl : second = first + 1 := by omega
    rw [List.length_cons, List.range'_succ, ← run (by omega)]

/-- The blocked beams of a run are none below it, all of it and none above it. -/
theorem blockedBeams_of_between {sample : BitVec 16} {first len : Nat} (fits : first + len ≤ 16)
    (blocked : ∀ j, j < 16 → sample.getLsbD j = (decide (first ≤ j) && decide (j < first + len))) :
    blockedBeams sample = List.range' first len := by
  have beams : List.range 16 =
      List.range' 0 first ++ (List.range' first len ++ List.range' (first + len) (16 - (first + len))) := by
    rw [List.range'_append_1, List.range_eq_range']
    have joined := List.range'_append_1 (s := 0) (m := first) (n := len + (16 - (first + len)))
    rw [Nat.zero_add] at joined
    rw [joined, show first + (len + (16 - (first + len))) = 16 by omega]
  have below : (List.range' 0 first).filter (fun j => sample.getLsbD j) = [] := by
    refine List.filter_eq_nil_iff.2 fun j hj => ?_
    obtain ⟨-, high⟩ := List.mem_range'_1.1 hj
    have clear : ¬first ≤ j := by omega
    simp [blocked j (by omega), clear]
  have within : (List.range' first len).filter (fun j => sample.getLsbD j) = List.range' first len := by
    refine List.filter_eq_self.2 fun j hj => ?_
    obtain ⟨low, high⟩ := List.mem_range'_1.1 hj
    simp [blocked j (by omega), low, high]
  have above : (List.range' (first + len) (16 - (first + len))).filter (fun j => sample.getLsbD j) = [] := by
    refine List.filter_eq_nil_iff.2 fun j hj => ?_
    obtain ⟨low, high⟩ := List.mem_range'_1.1 hj
    have clear : ¬j < first + len := by omega
    simp [blocked j (by omega), clear]
  rw [blockedBeams, beams, List.filter_append, List.filter_append, below, within, above, List.nil_append,
    List.append_nil]

/-- One run of blocked beams is the beams in order from its first, without a gap. -/
theorem isRun_iff {sample : BitVec 16} {first len : Nat} :
    IsRun sample first len ↔ 1 ≤ len ∧ blockedBeams sample = List.range' first len := by
  constructor
  · rintro ⟨positive, fits, blocked⟩
    exact ⟨positive, blockedBeams_of_between fits blocked⟩
  · rintro ⟨positive, beams⟩
    have member (j : Nat) : (j < 16 ∧ sample.getLsbD j = true) ↔ (first ≤ j ∧ j < first + len) := by
      rw [← mem_blockedBeams, beams, List.mem_range'_1]
    obtain ⟨last, -⟩ := (member (first + len - 1)).2 ⟨by omega, by omega⟩
    refine ⟨positive, by omega, fun j hj => ?_⟩
    rw [Bool.eq_iff_iff]
    simpa [hj] using member j

/-! ### The reading of one axis -/

theorem axisOf_of_cons {sample : BitVec 16} {first : Nat} {rest : List Nat} (beams : blockedBeams sample = first :: rest) :
    axisOf sample =
      if (first :: rest).getLast (by simp) - first = rest.length then .at (BitVec.ofNat 4 (first + rest.length / 2))
      else .broken := by
  unfold axisOf
  split <;> simp_all

@[simp] theorem axisOf_zero : axisOf 0#16 = .clear := by decide

/-- A run names its middle beam, the lower of two (R112). -/
theorem axisOf_of_isRun {sample : BitVec 16} {first len : Nat} (run : IsRun sample first len) :
    axisOf sample = .at (BitVec.ofNat 4 (first + (len - 1) / 2)) := by
  obtain ⟨positive, beams⟩ := isRun_iff.1 run
  obtain ⟨m, rfl⟩ := Nat.exists_eq_add_of_le' positive
  have last : (List.range' first (m + 1)).getLast (by simp) = first + m := by
    rw [List.getLast_range']
    omega
  simp only [List.range'_succ] at beams last
  rw [axisOf_of_cons beams, if_pos (by rw [last, List.length_range']; omega), List.length_range', Nat.add_sub_cancel]

/-- Blocked beams that are not one run name no beam (R112). -/
theorem axisOf_of_noRun {sample : BitVec 16} (blocked : sample ≠ 0) (noRun : ∀ first len, ¬IsRun sample first len) :
    axisOf sample = .broken := by
  obtain ⟨first, rest, beams⟩ := List.exists_cons_of_ne_nil (mt blockedBeams_eq_nil_iff.1 blocked)
  rw [axisOf_of_cons beams]
  refine if_neg fun ends => noRun first (rest.length + 1) (isRun_iff.2 ⟨by omega, ?_⟩)
  obtain ⟨apart, run⟩ := ascending_ends first rest (beams ▸ blockedBeams_pairwise sample)
  rw [beams, run (by omega)]

theorem axisOf_ne_clear {sample : BitVec 16} (blocked : sample ≠ 0) : axisOf sample ≠ .clear := by
  by_cases run : ∃ first len, IsRun sample first len
  · obtain ⟨first, len, run⟩ := run
    simp [axisOf_of_isRun run]
  · have broken := axisOf_of_noRun blocked fun first len isRun => run ⟨first, len, isRun⟩
    simp [broken]

/-! ### The scan result -/

theorem scanResult_of_horizontal_broken {h : BitVec 16} (v : BitVec 16) (broken : axisOf h = .broken) :
    scanResult h v = .ambiguous := by
  simp [scanResult, broken]

theorem scanResult_of_vertical_broken (h : BitVec 16) {v : BitVec 16} (broken : axisOf v = .broken) :
    scanResult h v = .ambiguous := by
  simp [scanResult, broken]

/-- Beams blocked on one axis alone name no cell (R112). -/
theorem scanResult_of_vertical_only {v : BitVec 16} (blocked : v ≠ 0) : scanResult 0 v = .ambiguous := by
  match axis : axisOf v with
  | .clear => exact absurd axis (axisOf_ne_clear blocked)
  | .broken => exact scanResult_of_vertical_broken 0 axis
  | .at beam => simp [scanResult, axis]

theorem scanResult_of_horizontal_only {h : BitVec 16} (blocked : h ≠ 0) : scanResult h 0 = .ambiguous := by
  match axis : axisOf h with
  | .clear => exact absurd axis (axisOf_ne_clear blocked)
  | .broken => exact scanResult_of_horizontal_broken 0 axis
  | .at beam => simp [scanResult, axis]

/-- Settles O47, by the readings of the two axes. -/
theorem scanResultNamesTheMiddle : Obligations.ScanResultNamesTheMiddle := by
  intro h v
  refine ⟨?_, ?_, ?_, fun blocked noRun => ?_, fun blocked noRun => ?_, fun hf hl vf vl hRun vRun => ?_⟩
  · rintro rfl rfl
    simp [scanResult]
  · rintro rfl blocked
    exact scanResult_of_vertical_only blocked
  · rintro blocked rfl
    exact scanResult_of_horizontal_only blocked
  · exact scanResult_of_horizontal_broken v (axisOf_of_noRun blocked noRun)
  · exact scanResult_of_vertical_broken h (axisOf_of_noRun blocked noRun)
  · simp [scanResult, axisOf_of_isRun hRun, axisOf_of_isRun vRun]

end Sys2Proof.Machine
end

section
/-! PROOFS. The touch filter: the record after one scan result, and after a run of equal ones. -/

namespace Sys2Proof.Machine

/-! ### One scan result -/

theorem filterStep_idle_cell (n : Nat) (c : TouchCell) : filterStep n .idle (.cell c) = (.candidate c 1, none) := rfl

/-- A further scan of the candidate's cell short of the N-th (R114). -/
theorem filterStep_candidate_counts {n k : Nat} (c : TouchCell) (short : k + 1 < n) :
    filterStep n (.candidate c k) (.cell c) = (.candidate c (k + 1), none) := by
  simp [filterStep, filterCandidate, Nat.ne_of_lt short]

/-- The N-th scan of the candidate's cell (R114). -/
theorem filterStep_candidate_believed (k : Nat) (c : TouchCell) :
    filterStep (k + 1) (.candidate c k) (.cell c) = (.held c none 0, some c) := by
  simp [filterStep, filterCandidate]

/-- Any result but the candidate's cell ends its run without a press (R114). -/
theorem filterStep_candidate_ends (n k : Nat) {c : TouchCell} {r : ScanResult} (other : r ≠ .cell c) :
    (filterStep n (.candidate c k) r).2 = none ∧ ∀ j, (filterStep n (.candidate c k) r).1 ≠ .candidate c j := by
  cases r with
  | nothing | ambiguous => simp [filterStep, filterCandidate]
  | cell d =>
    have ne : d ≠ c := fun same => other (congrArg _ same)
    simp [filterStep, filterCandidate, ne]

theorem filterStep_held_ambiguous (n : Nat) (c : TouchCell) (candidate : Option (TouchCell × Nat)) (gone : Nat) :
    filterStep n (.held c candidate gone) .ambiguous = (.held c candidate gone, none) := rfl

theorem filterStep_held_same (n : Nat) (c : TouchCell) (candidate : Option (TouchCell × Nat)) (gone : Nat) :
    filterStep n (.held c candidate gone) (.cell c) = (.held c none 0, none) := by
  simp [filterStep, filterHeld]

/-- A further scan without a touch short of the N-th (R115). -/
theorem filterStep_held_missing {n gone : Nat} (c : TouchCell) (candidate : Option (TouchCell × Nat))
    (short : gone + 1 < n) : filterStep n (.held c candidate gone) .nothing = (.held c none (gone + 1), none) := by
  simp [filterStep, filterHeld, Nat.ne_of_lt short]

/-- The N-th scan without a touch releases it, and no press is emitted (R115). -/
theorem filterStep_held_released (gone : Nat) (c : TouchCell) (candidate : Option (TouchCell × Nat)) :
    filterStep (gone + 1) (.held c candidate gone) .nothing = (.idle, none) := by
  simp [filterStep, filterHeld]

/-- The first scan of another cell (R115). -/
theorem filterStep_held_leaves (n gone : Nat) {c d : TouchCell} (other : d ≠ c) :
    filterStep n (.held c none gone) (.cell d) = (.held c (some (d, 1)) 0, none) := by
  simp [filterStep, filterHeld, other]

/-- A further scan of the other cell short of the N-th (R115). -/
theorem filterStep_held_counts {n k : Nat} (gone : Nat) {c d : TouchCell} (other : d ≠ c) (short : k + 1 < n) :
    filterStep n (.held c (some (d, k)) gone) (.cell d) = (.held c (some (d, k + 1)) 0, none) := by
  simp [filterStep, filterHeld, other, Nat.ne_of_lt short]

/-- The N-th scan of the other cell (R115). -/
theorem filterStep_held_moves (k gone : Nat) {c d : TouchCell} (other : d ≠ c) :
    filterStep (k + 1) (.held c (some (d, k)) gone) (.cell d) = (.held d none 0, some d) := by
  simp [filterStep, filterHeld, other]

/-! ### A run of scan results -/

/-- The record after the scan results, and the cells of the presses emitted on the way. -/
def filterRun (n : Nat) (start : TouchRecord) (results : List ScanResult) : TouchRecord × List TouchCell :=
  results.foldl (fun out r => ((filterStep n out.1 r).1, out.2 ++ (filterStep n out.1 r).2.toList)) (start, [])

theorem filterRun_singleton {n : Nat} {start t : TouchRecord} {r : ScanResult} {press : Option TouchCell}
    (step : filterStep n start r = (t, press)) : filterRun n start [r] = (t, press.toList) := by
  simp [filterRun, step]

/-- A run of equal results is extended at its end, where the press is emitted. -/
theorem filterRun_replicate_succ {n k : Nat} {start t u : TouchRecord} {presses : List TouchCell} {r : ScanResult}
    {press : Option TouchCell} (run : filterRun n start (List.replicate k r) = (t, presses))
    (step : filterStep n t r = (u, press)) :
    filterRun n start (List.replicate (k + 1) r) = (u, presses ++ press.toList) := by
  unfold filterRun at run ⊢
  rw [List.replicate_succ', List.foldl_append, run]
  simp [step]

/-- Fewer than N scans of a cell after IDLE make it the candidate (R114). -/
theorem filterRun_idle_cells {n : Nat} (c : TouchCell) (k : Nat) (short : k + 1 < n) :
    filterRun n .idle (List.replicate (k + 1) (.cell c)) = (.candidate c (k + 1), []) := by
  induction k with
  | zero => exact filterRun_singleton (filterStep_idle_cell n c)
  | succ k ih => exact filterRun_replicate_succ (ih (by omega)) (filterStep_candidate_counts c short)

/-- Fewer than N scans without a touch leave it held (R115). -/
theorem filterRun_held_nothings {n : Nat} (c : TouchCell) (k : Nat) (short : k < n) :
    filterRun n (.held c none 0) (List.replicate k .nothing) = (.held c none k, []) := by
  induction k with
  | zero => rfl
  | succ k ih => exact filterRun_replicate_succ (ih (by omega)) (filterStep_held_missing c none short)

/-- Fewer than N scans of another cell leave the touch where it is held (R115). -/
theorem filterRun_held_cells {n : Nat} {c d : TouchCell} (other : d ≠ c) (k : Nat) (short : k + 1 < n) :
    filterRun n (.held c none 0) (List.replicate (k + 1) (.cell d)) = (.held c (some (d, k + 1)) 0, []) := by
  induction k with
  | zero => exact filterRun_singleton (filterStep_held_leaves n 0 other)
  | succ k ih => exact filterRun_replicate_succ (ih (by omega)) (filterStep_held_counts 0 other short)

/-- Settles O48: each run of N results is one short of N, by induction on its length, and then its last step. -/
theorem filterBelievesNScans : Obligations.FilterBelievesNScans := by
  intro n c d atLeastTwo ne
  obtain ⟨m, rfl⟩ := Nat.exists_eq_add_of_le' atLeastTwo
  have other : d ≠ c := ne.symm
  refine ⟨?press, fun k positive short => ?candidate, fun k r _ _ notSame => filterStep_candidate_ends _ k notSame,
    ?release, fun k short => filterRun_held_nothings c k short, ?move,
    fun candidate gone => filterRun_singleton (filterStep_held_ambiguous _ c candidate gone),
    fun candidate gone => filterRun_singleton (filterStep_held_same _ c candidate gone)⟩
  case press =>
    exact filterRun_replicate_succ (filterRun_idle_cells c m (by omega)) (filterStep_candidate_believed (m + 1) c)
  case candidate =>
    obtain ⟨i, rfl⟩ := Nat.exists_eq_add_of_le' positive
    exact filterRun_idle_cells c i short
  case release =>
    exact filterRun_replicate_succ (filterRun_held_nothings c (m + 1) (by omega))
      (filterStep_held_released (m + 1) c none)
  case move =>
    exact filterRun_replicate_succ (filterRun_held_cells other m (by omega)) (filterStep_held_moves (m + 1) 0 other)

end Sys2Proof.Machine
end

section
/-! PROOFS. Events that change the line interface alone: the start of a character, and the line that goes high. -/

namespace Sys2Proof.Machine

/-! ### What the part's own steps read of the line interface -/

theorem passRoom_withLineIf {s : State} {l : LineInterface} (same : l.upstream = s.lineIf.upstream) (ch : Channel) :
    passRoom (s.withLineIf l) ch = passRoom s ch := by
  cases ch with
  | lineCh => rfl
  | localCh => simp only [passRoom, State.withLineIf_lineIf, same]

/-- Of the line interface a channel's piece reads the upstream queue alone (R59). -/
theorem presents_withLineIf {s : State} {l : LineInterface} (same : l.upstream = s.lineIf.upstream) (ch : Channel) :
    presents (s.withLineIf l) ch = presents s ch := by
  simp only [presents, unitReady, spanReady, State.withLineIf_chan, State.withLineIf_engine, passRoom_withLineIf same]

theorem isDue_withLineIf {s : State} {l : LineInterface} (same : l.upstream = s.lineIf.upstream) (i : Internal) :
    isDue i (s.withLineIf l) = isDue i s := by
  cases i with
  | decode ch | droppedRow ch => cases ch <;> rfl
  | render | restore => rfl
  | grant | grantLine => simp only [isDue, grantee, presents_withLineIf same, State.withLineIf_engine]

/-- An event at rest that replaces the line interface and keeps the upstream queue makes no step due and raises no flag. -/
theorem atEvent_withLineIf (f : State → State) (s : State) (l : LineInterface) (rest : AtRest s)
    (effect : f (s.withEvent (some (observe s))) = (s.withEvent (some (observe s))).withLineIf l)
    (upstream : l.upstream = s.lineIf.upstream) : atEvent f s = s.withLineIf l := by
  have due : dueStep (s.withLineIf l) = dueStep s := by simp only [dueStep, dueAmong, isDue_withLineIf upstream]
  exact atEvent_of_quiet f s (s.withLineIf l) rest effect rfl due rfl

/-! ### The start of a character -/

/-- Where no reply is sent, a character that begins leaves none waiting (R119, R126). -/
theorem beginCharacter_of_silent (l : LineInterface) (silent : sendingReply l = false) :
    beginCharacter l = { l with receiver := .receiving, reply := .idle } := by
  cases reply : l.reply with
  | idle | turnaround left => simp only [beginCharacter, reply]
  | sending bytes left => simp [sendingReply, reply] at silent

/-- A low line that outlasts the rejection width begins a character (R119). -/
theorem startCharacter_of_long (low : Nat) (s : State) (released : s.terminalReset = false)
    (silent : sendingReply s.lineIf = false) (idle : s.lineIf.receiver = .idle) (long : rejection s ≤ low) :
    startCharacter low s = s.withLineIf { s.lineIf with receiver := .receiving, reply := .idle } := by
  rw [← beginCharacter_of_silent s.lineIf silent]
  simp [startCharacter, released, silent, idle, Nat.not_lt.mpr long]

/-- A shorter pulse is rejected (R119). -/
theorem startCharacter_of_short (low : Nat) (s : State) (short : low < rejection s) : startCharacter low s = s := by
  simp [startCharacter, short]

/-- Settles O50: the low line outlasts the rejection width or does not, and the receiver waits or does not. -/
theorem receiverFindsCharacters : Obligations.ReceiverFindsCharacters := by
  intro s low rest width
  let b := s.withEvent (some (observe s))
  have threshold : rejection b = width := rfl
  have unchanged (f : State → State) (effect : f b = b) : atEvent f s = s :=
    atEvent_of_quiet f s s rest effect rfl rfl rfl
  refine ⟨fun released silent idle => ⟨fun long => ?_, fun short => ?_⟩, fun waits => ?_, fun busy => ?_⟩
  · have begun := startCharacter_of_long low b released silent idle (threshold ▸ long)
    refine ⟨_, congrArg Host.Outcome.next (atEvent_withLineIf _ s _ rest begun rfl), rfl, rfl, rfl, rfl, fun p hp => ?_⟩
    cases p <;> simp [SamePart, b] at hp ⊢
  · exact congrArg Host.Outcome.next (unchanged _ (startCharacter_of_short low b (threshold ▸ short)))
  · exact congrArg Host.Outcome.next (atEvent_withLineIf lineHigh s _ rest (if_pos waits) rfl)
  · exact congrArg Host.Outcome.next (unchanged lineHigh (if_neg busy))

end Sys2Proof.Machine
end

section
/-! PROOFS. The arrival of a character: its levels, and what the frame assembler makes of every character but a good check
character. -/

namespace Sys2Proof.Machine

/-! ### The character and its address byte -/

/-- A character error, as R119 says it. -/
theorem characterError_iff (c : LineChar) :
    characterError c = true ↔ (onesOf c.data + c.mark.toNat + c.parity.toNat) % 2 = 0 ∨ c.stop = false := by
  simp [characterError]

/-- The data bits are sampled from the least significant (R143). -/
theorem receivedChar_data (samples : BitVec 12) (j : Nat) (h : j < 8) :
    (receivedChar samples).data.getLsbD j = samples.getLsbD (j + 1) := by
  simp [receivedChar, h, Nat.add_comm]

/-- The station of an address byte is its upper five bits (R143). -/
theorem stationOf_toNat (b : Byte) : (stationOf b).toNat = b.toNat / 8 := by
  have byte := b.isLt
  rw [stationOf, BitVec.extractLsb'_toNat, Nat.shiftRight_eq_div_pow]
  omega

/-- A frame is taken at its own station, and at station 31 unless it is a POLL (R121). -/
theorem frameTaken_iff (own : Option (Fin 31)) (b : Byte) (kind : FrameKind) :
    frameTaken own (stationOf b) kind = true ↔
      if b.toNat / 8 = 31 then kind ≠ .poll else ∃ n, own = some n ∧ n.val = b.toNat / 8 := by
  rw [frameTaken, stationOf_toNat]
  split
  · exact bne_iff_ne
  · simp

/-! ### What each character does -/

/-- A frame discarded for another reason than room (R120). -/
theorem discardFrame_false (l : LineInterface) :
    discardFrame false l =
      { l with assembler := .hunt, staging := [], discards := if l.discards < 15 then l.discards + 1 else 15 } := by
  have count : min 15 (l.discards + 1) = if l.discards < 15 then l.discards + 1 else 15 := by split <;> omega
  simp only [discardFrame, hunting, Bool.or_false, count]

/-- The assembler in LENGTH with the record of a frame just taken (R121). -/
def addressed (kind : FrameKind) (b : Byte) (l : LineInterface) : LineInterface :=
  { l with
    staging := []
    assembler := .length
      { station := stationOf b, kind := kind, length := none, bytesLeft := 0, sum := b, high := none } }

/-- The address of a frame that is taken (R121). -/
theorem addressCharacter_of_taken {own : Option (Fin 31)} {b : Byte} {kind : FrameKind} (l : LineInterface)
    (known : frameKindOf b = some kind) (taken : frameTaken own (stationOf b) kind = true) :
    addressCharacter own b l = addressed kind b l := by
  simp only [addressCharacter, known, taken, if_true]
  rfl

/-- The address of a frame of another kind or for another station is passed over (R121). -/
theorem addressCharacter_of_passed {own : Option (Fin 31)} {b : Byte} (l : LineInterface)
    (passed : ∀ kind, frameKindOf b = some kind → frameTaken own (stationOf b) kind = false) :
    addressCharacter own b l = hunting l := by
  cases known : frameKindOf b with
  | none => simp only [addressCharacter, known]
  | some kind => simp only [addressCharacter, known, passed kind known, Bool.false_eq_true, if_false]

/-- In HUNT a bad character and one with its mark clear are ignored (R120). -/
theorem assemble_hunt_of_ignored (c : LineChar) (s : State) (hunt : s.lineIf.assembler = .hunt)
    (ignored : characterError c = true ∨ c.mark = false) : assemble c s = s := by
  simp only [assemble, hunt]
  exact if_pos (by simpa using ignored)

/-- A bad character ends a frame in progress (R120). -/
theorem assemble_of_error (c : LineChar) (s : State) (within : s.lineIf.assembler ≠ .hunt)
    (error : characterError c = true) : assemble c s = s.withLineIf (discardFrame false s.lineIf) := by
  cases place : s.lineIf.assembler with
  | hunt => exact absurd place within
  | length r | data r | check r => simp only [assemble, place, error, if_true]

/-- A good character with its mark set is an address in every state of the assembler (R120, R121). -/
theorem assemble_of_mark (c : LineChar) (s : State) (good : characterError c = false) (mark : c.mark = true) :
    assemble c s = s.withLineIf (addressCharacter s.station.effective.station c.data s.lineIf) := by
  cases place : s.lineIf.assembler <;> simp [assemble, place, good, mark]

section

variable {c : LineChar} {s : State} {r : Reception} (good : characterError c = false) (clear : c.mark = false)
include good clear

/-- A good character with its mark clear in LENGTH (R122). -/
theorem assemble_length (place : s.lineIf.assembler = .length r) :
    assemble c s = s.withLineIf (lengthCharacter r c.data s.lineIf) := by
  simp [assemble, place, good, clear]

/-- A good character with its mark clear in DATA (R122). -/
theorem assemble_data (place : s.lineIf.assembler = .data r) :
    assemble c s = s.withLineIf (dataCharacter r c.data s.lineIf) := by
  simp [assemble, place, good, clear]

/-- A good character with its mark clear in CHECK (R123). -/
theorem assemble_check (place : s.lineIf.assembler = .check r) : assemble c s = checkCharacter r c.data s := by
  simp [assemble, place, good, clear]

end

/-! ### The length and the data -/

/-- The record after the length character (R122). -/
def lengthTaken (r : Reception) (b : Byte) : Reception :=
  { r with length := some b.toNat, bytesLeft := 2 * b.toNat, sum := r.sum + b }

/-- A length that its kind cannot have ends the frame (R122). -/
theorem lengthCharacter_of_bad (r : Reception) (b : Byte) (l : LineInterface)
    (bad : 32 < b.toNat ∨ (r.kind ≠ .orders ∧ b.toNat ≠ 0)) : lengthCharacter r b l = discardFrame false l :=
  if_pos (by simpa using bad)

/-- A frame of length 0 has its check character next (R122). -/
theorem lengthCharacter_of_zero (r : Reception) (b : Byte) (l : LineInterface) (zero : b.toNat = 0) :
    lengthCharacter r b l = { l with assembler := .check (lengthTaken r b) } := by
  simp [lengthCharacter, lengthTaken, zero]

/-- An ORDERS frame of 1 to 32 words has its data next (R122). -/
theorem lengthCharacter_of_words (r : Reception) (b : Byte) (l : LineInterface) (orders : r.kind = .orders)
    (one : 1 ≤ b.toNat) (fits : b.toNat ≤ 32) :
    lengthCharacter r b l = { l with assembler := .data (lengthTaken r b) } := by
  have nonzero : b.toNat ≠ 0 := by omega
  have within : ¬32 < b.toNat := by omega
  simp [lengthCharacter, lengthTaken, orders, nonzero, within]

/-- The record after a data byte, with the byte that now waits for its low byte (R122). -/
def dataTaken (r : Reception) (b : Byte) (high : Option Byte) : Reception :=
  { r with bytesLeft := r.bytesLeft - 1, sum := r.sum + b, high := high }

/-- The place after a data byte: CHECK after the last one (R122). -/
def afterByte (r next : Reception) : Assembler := if r.bytesLeft = 1 then .check next else .data next

/-- The first byte of a word waits; the second completes it (R122). -/
theorem dataCharacter_eq (r : Reception) (b : Byte) (l : LineInterface) (left : 1 ≤ r.bytesLeft) :
    dataCharacter r b l =
      match r.high with
      | none => { l with assembler := afterByte r (dataTaken r b (some b)) }
      | some hi => { l with assembler := afterByte r (dataTaken r b none), staging := l.staging ++ [hi ++ b] } := by
  have last : r.bytesLeft ≤ 1 ↔ r.bytesLeft = 1 := by omega
  cases high : r.high <;> simp only [dataCharacter, high, last] <;> rfl

/-! ### The arrival -/

/-- The line interface after the sample of a character's stop bit (R119). -/
def sampled (c : LineChar) (l : LineInterface) : LineInterface :=
  { l with receiver := if c.stop = true then .idle else .waitHigh }

theorem mayArrive_of (s : State) (released : s.terminalReset = false) (silent : sendingReply s.lineIf = false)
    (receiving : s.lineIf.receiver = .receiving) : mayArrive s = true := by
  simp [mayArrive, released, silent, receiving]

/-- A character that can arrive reaches the assembler (R119, R120). -/
theorem arrive_of_mayArrive (c : LineChar) (s : State) (may : mayArrive s = true) :
    arrive c s = assemble c (s.withLineIf (sampled c s.lineIf)) := if_pos may

/-- A character at rest that changes the line interface alone, as every character but a good check character does. -/
theorem exec_characterArrival (s : State) (samples : BitVec 12) (l : LineInterface) (rest : AtRest s)
    (may : mayArrive s = true)
    (effect :
      assemble (receivedChar samples)
          ((s.withEvent (some (observe s))).withLineIf (sampled (receivedChar samples) s.lineIf)) =
        (s.withEvent (some (observe s))).withLineIf l)
    (upstream : l.upstream = s.lineIf.upstream) :
    exec (.characterArrival samples) s = .next (s.withLineIf l) := by
  have arrived := arrive_of_mayArrive (receivedChar samples) (s.withEvent (some (observe s))) may
  exact congrArg Host.Outcome.next (atEvent_withLineIf (arrive _) s l rest (arrived.trans effect) upstream)

/-- Settles O51: a bad character, an address, a length and a data byte, each at the places where it can come. -/
theorem assemblerTakesCharacters : Obligations.AssemblerTakesCharacters := by
  intro s samples rest released silent receiving c l run discarded bad kind station taken
  let t := (s.withEvent (some (observe s))).withLineIf l
  have may := mayArrive_of s released silent receiving
  have runs (l' : LineInterface) (effect : assemble c t = t.withLineIf l') (upstream : l'.upstream = s.lineIf.upstream) :
      run l' := exec_characterArrival s samples l' rest may effect upstream
  have discards (effect : assemble c t = t.withLineIf (discardFrame false l)) : run discarded :=
    runs discarded (effect.trans (congrArg t.withLineIf (discardFrame_false l))) rfl
  have good (fine : ¬bad) : characterError c = false :=
    Bool.eq_false_iff.mpr fun error => fine ((characterError_iff c).mp error)
  refine ⟨receivedChar_data samples, rfl, rfl, rfl, fun hunt ignored => ?hunt, fun within _ error => ?error,
    fun fine mark other => ?passed, fun k fine mark mine known => ?taken, fun r fine clear place => ?length,
    fun r fine clear place left => ?data⟩
  case hunt => exact runs l (assemble_hunt_of_ignored c t hunt (ignored.imp_left (characterError_iff c).mpr)) rfl
  case error => exact discards (assemble_of_error c t within ((characterError_iff c).mpr error))
  case passed =>
    have address := addressCharacter_of_passed l fun k (known : frameKindOf c.data = some k) =>
      Bool.eq_false_iff.mpr fun mine =>
        other ⟨by simp [kind, known], by simpa [kind, known] using (frameTaken_iff _ _ k).mp mine⟩
    exact runs _ ((assemble_of_mark c t (good fine) mark).trans (congrArg t.withLineIf address)) rfl
  case taken =>
    have mine' := (frameTaken_iff s.station.effective.station c.data k).mpr (by simpa [kind, known] using mine.2)
    have address := addressCharacter_of_taken l known mine'
    exact runs _ ((assemble_of_mark c t (good fine) mark).trans (congrArg t.withLineIf address)) rfl
  case length =>
    have answer := assemble_length (s := t) (good fine) clear place
    refine ⟨fun _ long => discards (answer.trans (congrArg t.withLineIf (lengthCharacter_of_bad r c.data l long))),
      fun zero => ?_, fun orders one fits => ?_⟩
    · exact runs _ (answer.trans (congrArg t.withLineIf (lengthCharacter_of_zero r c.data l zero))) rfl
    · exact runs _ (answer.trans (congrArg t.withLineIf (lengthCharacter_of_words r c.data l orders one fits))) rfl
  case data =>
    have answer := assemble_data (s := t) (good fine) clear place
    have byte := dataCharacter_eq r c.data l left
    refine ⟨fun high => ?_, fun hi high => ?_⟩ <;> rw [high] at byte <;>
      exact runs _ (answer.trans (congrArg t.withLineIf byte)) rfl

end Sys2Proof.Machine
end

section
/-! PROOFS. The check character of a frame: the tests of R123, and what a CLEAR frame leaves. -/

namespace Sys2Proof.Machine

/-! ### The arrival of the check character -/

/-- The parity of a character that is sent makes its count of 1s odd (R143). -/
theorem characterError_goodCharacter (b : Byte) : characterError (goodCharacter b) = false := by
  rw [Bool.eq_false_iff, ne_eq, characterError_iff]
  simp only [goodCharacter, parityOf, Bool.toNat_false, Nat.add_zero, Bool.true_eq_false, or_false]
  rcases Nat.mod_two_eq_zero_or_one (onesOf b) with even | odd
  · simp [even, Nat.add_mod]
  · simp [odd]

/-- The line interface after the sample of a good character's stop bit (R119). -/
def heard (l : LineInterface) : LineInterface := { l with receiver := .idle }

/-- A check character that can arrive meets the tests of R123. -/
theorem checkArrives_of_check (s : State) (r : Reception) (b : Byte) (may : mayArrive s = true)
    (place : s.lineIf.assembler = .check r) :
    checkArrives r.kind b s = checkCharacter r b (s.withLineIf (heard s.lineIf)) := by
  have inCheck : checkKind s.lineIf = some r.kind := by simp only [checkKind, place]
  rw [checkArrives, if_pos inCheck, arrive_of_mayArrive _ s may]
  exact assemble_check (characterError_goodCharacter b) rfl place

/-- ORDERS, CLEAR and POLL are the arrival of the check character of their kind. -/
theorem exec_of_frameKind (s : State) (kind : FrameKind) (b : Byte) :
    exec (match kind with | .orders => .orders b | .clear => .clear b | .poll => .poll b) s =
      .next (atEvent (checkArrives kind b) s) := by
  cases kind <;> rfl

/-! ### The tests -/

section

variable {r : Reception} {b : Byte}

/-- A sum that is not 0 ends the frame (R123). -/
theorem checkCharacter_of_sum (s : State) (sum : r.sum + b ≠ 0) :
    checkCharacter r b s = s.withLineIf (discardFrame false s.lineIf) := if_pos sum

theorem checkCharacter_of_orders (s : State) (sum : r.sum + b = 0) (kind : r.kind = .orders) :
    checkCharacter r b s = acceptOrders s := by
  rw [checkCharacter, if_neg (not_not_intro sum), kind]

theorem checkCharacter_of_clear (s : State) (sum : r.sum + b = 0) (kind : r.kind = .clear) :
    checkCharacter r b s = acceptClear s := by
  rw [checkCharacter, if_neg (not_not_intro sum), kind]

theorem checkCharacter_of_poll (s : State) (sum : r.sum + b = 0) (kind : r.kind = .poll) :
    checkCharacter r b s = acceptPoll s := by
  rw [checkCharacter, if_neg (not_not_intro sum), kind]

end

/-- A HALTED line channel takes no orders (R123). -/
theorem acceptOrders_of_halted (s : State) (halted : s.lineChan.response = .halted) :
    acceptOrders s = s.withLineIf (discardFrame false s.lineIf) := if_pos halted

/-- Orders for which the line FIFO has no room are discarded, and the room flag set (R123, R124). -/
theorem acceptOrders_of_crowded (s : State) (running : s.lineChan.response ≠ .halted)
    (crowded : fifoFree s .lineCh < s.lineIf.staging.length) :
    acceptOrders s = s.withLineIf (discardFrame true s.lineIf) := (if_neg running).trans (if_pos crowded)

/-- Orders for which there is room join the line FIFO (R123). -/
theorem acceptOrders_of_room (s : State) (running : s.lineChan.response ≠ .halted)
    (room : s.lineIf.staging.length ≤ fifoFree s .lineCh) :
    acceptOrders s =
      (s.withLineIf (hunting s.lineIf)).withLineChan
        { s.lineChan with fifo := s.lineChan.fifo ++ s.lineIf.staging } :=
  (if_neg running).trans (if_neg (Nat.not_lt.mpr room))

theorem acceptOrders_onlyChanges (s : State) (running : s.lineChan.response ≠ .halted)
    (room : s.lineIf.staging.length ≤ fifoFree s .lineCh) :
    OnlyChanges [.lineChan, .receiver] s (acceptOrders s) := by
  intro p hp
  rw [acceptOrders_of_room s running room]
  cases p <;> simp [SamePart, hunting] at hp ⊢

/-! ### A CLEAR frame -/

/-- Places that become free change nothing but the event in progress. -/
theorem freePlaces_eq (wasFull : Bool) (s : State) : ∃ e, freePlaces wasFull s = s.withEvent e := by
  rcases freePlaces_cases wasFull s with e | e <;> rw [e]
  · exact ⟨s.event, rfl⟩
  · exact ⟨_, rfl⟩

/-- Abandoning a channel's held span keeps the other channel's (R5). -/
theorem abandonHeld_engine (ch : Channel) (s : State) :
    (abandonHeld ch s).engine = { s.engine with held := s.engine.held.filter fun h => h.channel != ch } := by
  cases held : s.engine.held with
  | none =>
    simp only [abandonHeld, held, Option.filter_none]
    rw [← held]
  | some h =>
    by_cases mine : h.channel = ch
    · simp [abandonHeld, held, mine, Option.filter]
    · simp only [abandonHeld, held, mine, if_false, Option.filter, bne_iff_ne, ne_eq, not_false_eq_true, if_true]
      rw [← held]

/-- The supervision state after takeover has ended, if it was in force (R106). -/
theorem giveEffect_supervision (s : State) :
    (giveEffect s).supervision =
      { s.supervision with
        takeover := false
        resumeAwaited :=
          if s.supervision.takeover = true then decide (s.localChan.response = .hold)
          else s.supervision.resumeAwaited } := by
  have inHold : (s.localChan.response == .hold) = decide (s.localChan.response = .hold) := rfl
  cases taken : s.supervision.takeover with
  | true =>
    simp only [giveEffect_of_taken s taken, raiseFlag_supervision, State.withSupervision_supervision, inHold, if_true]
  | false =>
    simp only [giveEffect_of_free s taken, Bool.false_eq_true, if_false]
    rw [← taken]

/-- The end of takeover raises TAKEOVER, and otherwise nothing is raised (R106, R132). -/
theorem giveEffect_flags (s : State) :
    FlagsAfter (if s.supervision.takeover = true then [.takeover] else []) s (giveEffect s) := by
  cases taken : s.supervision.takeover with
  | true => exact .of_raised (by rw [giveEffect_of_taken s taken]; rfl)
  | false => exact .of_flags (by rw [giveEffect_of_free s taken])

theorem giveEffect_onlyChanges (s : State) : OnlyChanges [.takeover, .flags] s (giveEffect s) := by
  intro p hp
  cases taken : s.supervision.takeover with
  | true => rw [giveEffect_of_taken s taken]; cases p <;> simp [SamePart] at hp ⊢
  | false => rw [giveEffect_of_free s taken]; exact SamePart.refl s p

/-- The state after a CLEAR frame, but for the places it may have freed (R57, R125). -/
def lineCleared (s : State) : State :=
  let t := giveEffect ((abandonHeld .lineCh s).withLineChan Chan.initial)
  (t.withSupervision { t.supervision with area := Rect.whole, route := s.station.effective.route }).withLineIf
    { hunting s.lineIf with upstream := [] }

theorem acceptClear_eq (s : State) : ∃ e, acceptClear s = (lineCleared s).withEvent e := by
  obtain ⟨e, freed⟩ := freePlaces_eq (upstreamFull s) (lineCleared s)
  have emptied : clearedChan .accept = Chan.initial := rfl
  exact ⟨e, Eq.trans (by simp [acceptClear, lineCleared, emptied]) freed⟩

theorem lineCleared_onlyChanges (s : State) :
    OnlyChanges [.lineChan, .held, .area, .route, .takeover, .receiver, .upstream, .flags] s (lineCleared s) := by
  let u := (abandonHeld .lineCh s).withLineChan Chan.initial
  have emptied : OnlyChanges [.lineChan, .held] s u := by
    intro p hp
    cases p <;> simp [SamePart, u, abandonHeld_engine] at hp ⊢
  have cleared : OnlyChanges [.area, .route, .receiver, .upstream] (giveEffect u) (lineCleared s) := by
    intro p hp
    cases p <;> simp [SamePart, u, lineCleared, hunting] at hp ⊢
  exact ((emptied.trans (giveEffect_onlyChanges u)).trans cleared).mono (by decide)

theorem lineCleared_flags (s : State) :
    FlagsAfter (if s.supervision.takeover = true then [.takeover] else []) s (lineCleared s) := by
  have given := giveEffect_flags ((abandonHeld .lineCh s).withLineChan Chan.initial)
  simp only [State.withLineChan_supervision, abandonHeld_frame] at given
  exact given.of_before (by simp)

/-- Settles O52: the tests of R123 in their order, each outcome but two a new line interface alone. -/
theorem frameEndsAtItsCheckCharacter : Obligations.FrameEndsAtItsCheckCharacter := by
  intro s r b cmd rest released silent receiving place command discard
  let e := some (observe s)
  let u := (s.withEvent e).withLineIf (heard s.lineIf)
  have run : exec cmd s = .next (atEvent (checkArrives r.kind b) s) := by
    rw [command]
    exact exec_of_frameKind s r.kind b
  have checked : checkArrives r.kind b (s.withEvent e) = checkCharacter r b u :=
    checkArrives_of_check (s.withEvent e) r b (mayArrive_of s released silent receiving) place
  have quiet (l : LineInterface) (effect : checkCharacter r b u = u.withLineIf l)
      (upstream : l.upstream = s.lineIf.upstream) : exec cmd s = .next (s.withLineIf l) := by
    rw [run, atEvent_withLineIf _ s l rest (checked.trans effect) upstream]
  have closed : exec cmd s = .next (closeEvent (checkCharacter r b u)) := by
    rw [run, atEvent_of_atRest _ s rest, checked]
  have discarded (room : Bool) (effect : checkCharacter r b u = u.withLineIf (discardFrame room u.lineIf)) :
      exec cmd s = .next (discard room) := quiet (discardFrame room u.lineIf) effect rfl
  have noted : OnlyChanges [.receiver] s u := by
    intro p hp
    cases p <;> simp [SamePart, u, heard] at hp ⊢
  refine ⟨fun sum => discarded false (checkCharacter_of_sum u sum), fun sum kind halted => ?halted,
    fun sum kind running crowded => ?crowded, fun sum kind running room => ?taken, fun sum kind => ?clear,
    fun sum kind => quiet _ (checkCharacter_of_poll u sum kind) rfl⟩
  case halted => exact discarded false ((checkCharacter_of_orders u sum kind).trans (acceptOrders_of_halted u halted))
  case crowded =>
    exact discarded true ((checkCharacter_of_orders u sum kind).trans (acceptOrders_of_crowded u running crowded))
  case taken =>
    have frame := (noted.trans (acceptOrders_onlyChanges u running room)).trans (onlyChanges_closeEvent _)
    rw [checkCharacter_of_orders u sum kind, acceptOrders_of_room u running room] at closed
    rw [acceptOrders_of_room u running room] at frame
    refine ⟨_, closed, ?_, ?_, frame.mono (by decide), (FlagsAfter.of_flags rfl).closed⟩
    · simp [u, heard]
    · simp [u, hunting, heard]
  case clear =>
    obtain ⟨e', cleared⟩ := acceptClear_eq u
    rw [checkCharacter_of_clear u sum kind, cleared] at closed
    refine ⟨_, closed, by simp [lineCleared], by simp [lineCleared], by simp [lineCleared, u], ?_, ?_, ?_, ?_, ?_, ?_⟩
    · simp [lineCleared, giveEffect_supervision]
    · simp [lineCleared, giveEffect_supervision, u]
    · simp [lineCleared, hunting, u, heard]
    · simp [lineCleared, abandonHeld_engine, u]
    · exact (((noted.trans (lineCleared_onlyChanges u)).trans (onlyChanges_withEvent _ e')).trans
        (onlyChanges_closeEvent _)).mono (by decide)
    · have flags : FlagsAfter (if s.supervision.takeover = true then [.takeover] else []) s (lineCleared u) :=
        (lineCleared_flags u).of_before rfl
      exact FlagsAfter.closed (t := (lineCleared u).withEvent e') flags

end Sys2Proof.Machine
end

section
/-! PROOFS. The reply: its words as numbers, its bytes word by word, its composition and its end. -/

namespace Sys2Proof.Machine

/-! ### Words as numbers -/

/-- Two fields side by side, the upper one shifted past the lower. -/
theorem toNat_append_eq_add {m n : Nat} (x : BitVec m) (y : BitVec n) : (x ++ y).toNat = x.toNat * 2 ^ n + y.toNat := by
  rw [BitVec.toNat_append, ← Nat.shiftLeft_add_eq_or_of_lt y.isLt, Nat.shiftLeft_eq]

theorem causeCode_lt (cause : HaltCause) : causeCode cause < 4 := by cases cause <;> decide

theorem panelCode_lt (state : PanelState) : panelCode state < 4 := by cases state <;> decide

/-- Reply word 1 by its fields, from the least significant (R143). -/
theorem replyWord1_toNat (s : State) :
    (replyWord1 s).toNat =
      (decide (s.lineChan.response = .halted)).toNat + 2 * causeCode s.lineChan.cause +
        8 * panelCode s.sustain.panelState + 32 * (isSettled s).toNat + 64 * s.supervision.takeover.toNat +
        128 * s.supervision.resumeAwaited.toNat + 256 * (chanIdle s.lineChan).toNat := by
  have cause := Nat.mod_eq_of_lt (causeCode_lt s.lineChan.cause)
  have panel := Nat.mod_eq_of_lt (panelCode_lt s.sustain.panelState)
  have halted : (s.lineChan.response == .halted) = decide (s.lineChan.response = .halted) := rfl
  simp only [replyWord1, toNat_append_eq_add, BitVec.toNat_ofBool, BitVec.toNat_ofNat, BitVec.ofNat_eq_ofNat, halted]
  omega

/-- Reply word 2 is the free count of the line FIFO (R143). -/
theorem replyWord2_toNat (s : State) : (replyWord2 s).toNat = 256 - s.lineChan.fifo.length := by
  have free : fifoFree s .lineCh = 256 - s.lineChan.fifo.length := rfl
  rw [replyWord2, BitVec.toNat_ofNat, free]
  omega

theorem replyCount_le (s : State) : replyCount s ≤ 4 := Nat.min_le_left _ _

/-- Reply word 3 by its fields, from the least significant (R143). -/
theorem replyWord3_toNat (s : State) (discards : s.lineIf.discards ≤ 15) :
    (replyWord3 s).toNat =
      s.lineIf.discards + 16 * s.lineIf.roomFlag.toNat + 32 * s.lineIf.overflow.toNat + 64 * replyCount s := by
  have count := replyCount_le s
  simp only [replyWord3, toNat_append_eq_add, BitVec.toNat_ofBool, BitVec.toNat_ofNat, BitVec.ofNat_eq_ofNat]
  omega

/-- A record by its layout (R142). -/
theorem recordWord_toNat (r : InputRecord) :
    (recordWord r).toNat =
      match r with
      | .touch c => 4096 + 16 * c.tx.toNat + c.ty.toNat
      | .pass p => 8192 + p.toNat := by
  cases r with
  | touch c =>
    simp only [recordWord, toNat_append_eq_add, BitVec.toNat_ofNat]
    omega
  | pass p => exact toNat_append_eq_add 2#4 p

/-! ### The bytes of the reply -/

/-- The two bytes of a word make up its value (R143). -/
theorem highByte_lowByte_toNat (w : Word) : 256 * (highByte w).toNat + (lowByte w).toNat = w.toNat := by
  have word := w.isLt
  simp only [highByte, lowByte, BitVec.extractLsb'_toNat, Nat.shiftRight_eq_div_pow]
  omega

/-- Word `i` stands in the bytes `2i` and `2i + 1` of its words as sent (R143). -/
theorem wordBytes_getElem? (words : List Word) (i : Nat) (w : Word) (h : words[i]? = some w) :
    (words.flatMap wordBytes)[2 * i]? = some (highByte w) ∧
      (words.flatMap wordBytes)[2 * i + 1]? = some (lowByte w) := by
  induction words generalizing i with
  | nil => simp at h
  | cons first rest ih =>
    rw [List.flatMap_cons]
    cases i with
    | zero =>
      obtain rfl : first = w := by simpa using h
      exact ⟨rfl, rfl⟩
    | succ i => exact ih i (by simpa using h)

theorem replyWords_length (s : State) : (replyWords s).length = 3 + replyCount s := by
  have within : replyCount s ≤ s.lineIf.upstream.length := Nat.min_le_right _ _
  simp [replyWords, within]
  omega

theorem replyWords_bytes_length (s : State) : ((replyWords s).flatMap wordBytes).length = 6 + 2 * replyCount s := by
  have words : ((replyWords s).flatMap wordBytes).length = 2 * (replyWords s).length := rowsOfWords_length (replyWords s)
  rw [words, replyWords_length]
  omega

/-- Record `j` of the upstream queue, when the reply carries it, is its data word `3 + j` (R127). -/
theorem replyWords_record (s : State) (j : Nat) (r : InputRecord) (carried : j < replyCount s)
    (record : s.lineIf.upstream[j]? = some r) : (replyWords s)[3 + j]? = some (recordWord r) := by
  have rest : (replyWords s)[3 + j]? = ((s.lineIf.upstream.take (replyCount s)).map recordWord)[j]? := by
    rw [Nat.add_comm]
    rfl
  rw [rest, List.getElem?_map, List.getElem?_take_of_lt carried, record]
  rfl

/-- The reply has an address, a length, three status words, its records and a check byte (R127). -/
theorem replyBytes_length (s : State) : (replyBytes s).length = 9 + 2 * replyCount s := by
  simp only [replyBytes, List.length_append, List.length_cons, List.length_nil, replyWords_bytes_length]
  omega

/-- The check byte makes the sum of a frame 0 modulo 256 (R143). -/
theorem byteSum_append_checkByte (body : List Byte) : byteSum (body ++ [checkByte body]) = 0 := by
  have last : byteSum (body ++ [checkByte body]) = byteSum body + (0 - byteSum body) := by
    rw [byteSum, List.foldl_append]
    rfl
  rw [last, BitVec.add_comm, BitVec.sub_add_cancel]

theorem replyBytes_sum (s : State) : byteSum (replyBytes s) = 0 := byteSum_append_checkByte _

/-- Data word `i` of the reply stands behind its address and its length (R143). -/
theorem replyBytes_word (s : State) (k i : Nat) (w : Word) (place : k = 2 * i + 2) (h : (replyWords s)[i]? = some w) :
    256 * ((replyBytes s).getD k 0).toNat + ((replyBytes s).getD (k + 1) 0).toNat = w.toNat := by
  obtain ⟨high, low⟩ := wordBytes_getElem? (replyWords s) i w h
  have data (n : Nat) (b : Byte) (at' : ((replyWords s).flatMap wordBytes)[n]? = some b) :
      (replyBytes s).getD (n + 2) 0 = b := by
    have within : n < ((replyWords s).flatMap wordBytes).length := (List.getElem?_eq_some_iff.mp at').1
    simp only [replyBytes, List.getD_eq_getElem?_getD, List.cons_append, List.getElem?_cons_succ,
      List.getElem?_append_left within, at', Option.getD_some]
  subst place
  rw [data _ _ high, show 2 * i + 2 + 1 = 2 * i + 1 + 2 from rfl, data _ _ low, highByte_lowByte_toNat]

/-- The address byte of a reply: the station and the kind REPLY (R143). -/
theorem replyBytes_address (s : State) : ((replyBytes s).getD 0 0).toNat = 8 * (stationBits s).toNat + 4 := by
  have address : (replyBytes s).getD 0 0 = replyAddress (stationBits s) := rfl
  rw [address, replyAddress, toNat_append_eq_add, Nat.mul_comm]
  rfl

/-- The length byte of a reply counts its data words (R143). -/
theorem replyBytes_count (s : State) : ((replyBytes s).getD 1 0).toNat = 3 + replyCount s := by
  have length : (replyBytes s).getD 1 0 = BitVec.ofNat 8 (replyWords s).length := rfl
  have count := replyCount_le s
  rw [length, BitVec.toNat_ofNat, replyWords_length]
  omega

theorem stationBits_of_some (s : State) (n : Fin 31) (own : s.station.effective.station = some n) :
    (stationBits s).toNat = n.val := by
  have number := n.isLt
  rw [stationBits, own, BitVec.toNat_ofNat]
  exact Nat.mod_eq_of_lt (by rw [Option.map_some, Option.getD_some]; omega)

/-- A part with no station would reply as station 31 (log entry 15). -/
theorem stationBits_of_none (s : State) (own : s.station.effective.station = none) : (stationBits s).toNat = 31 := by
  rw [stationBits, own]
  rfl

/-! ### Composing and sending -/

/-- The line interface as a reply's sending begins (R126, R127). -/
def replying (s : State) : LineInterface :=
  { s.lineIf with
    reply := .sending (replyBytes s) ((replyBytes s).length * characterQuarters s.station.effective.rate)
    receiver := .idle
    upstream := s.lineIf.upstream.drop (replyCount s)
    discards := 0, roomFlag := false, overflow := false }

/-- The expiry of the gap composes the reply (R126, R127). -/
theorem composeReply_of_turnaround (s : State) (left : Nat) (reply : s.lineIf.reply = .turnaround left) :
    ∃ e, composeReply s = (s.withLineIf (replying s)).withEvent e := by
  obtain ⟨e, freed⟩ := freePlaces_eq (upstreamFull s) (s.withLineIf (replying s))
  refine ⟨e, Eq.trans ?_ freed⟩
  simp only [composeReply, reply]
  rfl

theorem replying_onlyChanges (s : State) :
    OnlyChanges [.receiver, .reply, .upstream, .counts] s (s.withLineIf (replying s)) := by
  intro p hp
  cases p <;> simp [SamePart] at hp ⊢

/-- TURNAROUND_GAP_EXPIRY at rest (R126, R127). -/
theorem exec_turnaroundGapExpiry (s : State) (left : Nat) (rest : AtRest s) (reply : s.lineIf.reply = .turnaround left) :
    ∃ e, exec .turnaroundGapExpiry s = .next (closeEvent ((s.withLineIf (replying s)).withEvent e)) := by
  obtain ⟨e, composed⟩ := composeReply_of_turnaround (s.withEvent (some (observe s))) left reply
  refine ⟨e, congrArg Host.Outcome.next ?_⟩
  rw [atEvent_of_atRest composeReply s rest, composed]
  rfl

/-- The end of a reply that is sent leaves the receiver idle in HUNT (R126). -/
theorem endReply_of_sending (s : State) (bytes : List Byte) (left : Nat) (reply : s.lineIf.reply = .sending bytes left) :
    endReply s = s.withLineIf { hunting s.lineIf with reply := .idle, receiver := .idle } :=
  if_pos (by simp only [sendingReply, reply])

/-- Settles O53: the reply's bytes field by field, the line interface that sends them, and its end. -/
theorem replyIsComposedAndSent : Obligations.ReplyIsComposedAndSent := by
  intro s rest count
  refine ⟨fun left reply => ?composed, fun bytes left reply => ?sent⟩
  case composed =>
    obtain ⟨e, composed⟩ := exec_turnaroundGapExpiry s left rest reply
    have word := replyBytes_word s
    refine ⟨_, replyBytes s, composed, by simp [replying], replyBytes_length s, replyBytes_sum s,
      ⟨fun n own => ?_, fun own => ?_, replyBytes_count s, ?_, ?_, fun discards => ?_, fun j r carried record => ?_⟩,
      by simp [replying, replyCount, count], by simp [replying], by simp [replying], by simp [replying],
      by simp [driverEnable, sendingReply, replying], ?_, (FlagsAfter.of_flags rfl).closed⟩
    · exact (replyBytes_address s).trans (by rw [stationBits_of_some s n own])
    · exact (replyBytes_address s).trans (by rw [stationBits_of_none s own])
    · exact (word 2 0 _ rfl rfl).trans (replyWord1_toNat s)
    · exact (word 4 1 _ rfl rfl).trans (replyWord2_toNat s)
    · exact (word 6 2 _ rfl rfl).trans (replyWord3_toNat s discards)
    · have data := replyWords_record s j r carried record
      exact (word (8 + 2 * j) (3 + j) _ (by omega) data).trans (recordWord_toNat r)
    · exact ((replying_onlyChanges s).trans (onlyChanges_withEvent _ e)).trans (onlyChanges_closeEvent _)
  case sent =>
    have ended := endReply_of_sending (s.withEvent (some (observe s))) bytes left reply
    exact congrArg Host.Outcome.next (atEvent_withLineIf endReply s _ rest ended rfl)

end Sys2Proof.Machine
end

section
/-! PROOFS. The reads of the word port: the word that each location returns, and what a read of INPUT or STATUS leaves. -/

namespace Sys2Proof.Machine

/-! ### The word of each location -/

/-- While the terminal reset input is asserted every read returns 0 (R129, R144). -/
theorem portRead_of_asserted (s : State) (asserted : s.terminalReset = true) (location : BitVec 3) :
    portRead s location = 0 := if_pos asserted

/-- Otherwise each location returns its own word (R129). -/
theorem portRead_of_released (s : State) (released : s.terminalReset = false) :
    portRead s 0 = 0 ∧ portRead s 1 = inputWord s ∧ portRead s 2 = statusWord s ∧
      portRead s 3 = BitVec.ofNat 16 (fifoFree s .localCh) ∧ portRead s 4 = s.port.flags.setWidth 16 ∧
      portRead s 5 = recordFieldRead s ∧ portRead s 6 = 0 ∧ portRead s 7 = 0 := by
  simp [portRead, released]

theorem responseCode_lt (response : Response) : responseCode response < 4 := by cases response <;> decide

/-- The STATUS word by its fields, from the least significant (R142). -/
theorem statusWord_toNat (s : State) (held : s.port.input.length ≤ 16) :
    (statusWord s).toNat =
      responseCode s.localChan.response + 4 * causeCode s.localChan.cause + 16 * s.supervision.takeover.toNat +
        32 * s.supervision.resumeAwaited.toNat + 64 * panelCode s.sustain.panelState + 256 * (isSettled s).toNat +
        512 * s.port.input.length + 16384 * s.port.overflow.toNat + 32768 * s.station.programming.isSome.toNat := by
  have response := responseCode_lt s.localChan.response
  have cause := causeCode_lt s.localChan.cause
  have panel := panelCode_lt s.sustain.panelState
  simp only [statusWord, toNat_append_eq_add, BitVec.toNat_ofBool, BitVec.toNat_ofNat]
  omega

/-- SPACE is the free count of the local FIFO (R131). -/
theorem localFree_toNat (s : State) :
    (BitVec.ofNat 16 (fifoFree s .localCh)).toNat = 64 - s.localChan.fifo.length := by
  have free : fifoFree s .localCh = 64 - s.localChan.fifo.length := rfl
  rw [BitVec.toNat_ofNat, free]
  omega

/-- The flags in the order of their bits in EVENTS (R142). -/
theorem flagBit_of_getElem? (k : Nat) (flag : EventFlag)
    (listed : [EventFlag.space, .refused, .drained, .input, .takeover, .panel, .halt, .settled][k]? = some flag) :
    flagBit flag = k := by
  obtain ⟨short, rfl⟩ := List.getElem?_eq_some_iff.mp listed
  have bits : ∀ j : Fin 8,
      flagBit [EventFlag.space, .refused, .drained, .input, .takeover, .panel, .halt, .settled][j] = j := by decide
  exact bits ⟨k, short⟩

/-! ### RECORD -/

/-- The RECORD word by its fields (R142). -/
theorem recordFieldWord_toNat (cell : Byte) (committed : Bool) (part : Nat) (fits : part < 128) :
    (recordFieldWord cell committed part).toNat = cell.toNat + 256 * committed.toNat + 512 * part := by
  simp only [recordFieldWord, toNat_append_eq_add, BitVec.toNat_ofBool, BitVec.toNat_ofNat]
  omega

/-- With a period and a dead time in range every effective part fits its seven bits (R136). -/
theorem effectivePart_lt (e : Effective) (period : e.period ≤ 160) (dead : e.dead ≤ 16) (f : Nat) :
    effectivePart e f < 128 := by
  unfold effectivePart
  split
  case h_1 =>
    cases e.station with
    | none => decide
    | some n => exact Nat.lt_trans n.isLt (by decide)
  case h_2 => cases e.rate <;> decide
  case h_3 => cases e.noise <;> decide
  case h_4 => omega
  case h_5 => omega
  case h_6 => cases e.divider <;> decide
  case h_7 => cases e.pair <;> decide
  case h_8 => cases e.filter <;> decide
  case h_9 => cases e.route <;> decide
  case h_10 => decide

/-- The effective parts in the order of their fields (R136). -/
theorem effectivePart_of_getElem? (e : Effective) (f part : Nat)
    (listed : ((List.range 9).map (effectivePart e))[f]? = some part) : f ≤ 8 ∧ effectivePart e f = part := by
  obtain ⟨short, named⟩ := List.getElem?_eq_some_iff.mp listed
  rw [List.length_map, List.length_range] at short
  rw [List.getElem_map, List.getElem_range] at named
  exact ⟨Nat.le_of_lt_succ short, named⟩

/-- Fields 0 to 8 return a cell, its committed mark and the effective part (R136). -/
theorem recordFieldRead_toNat (s : State) (field : s.port.select.toNat ≤ 8) (period : s.station.effective.period ≤ 160)
    (dead : s.station.effective.dead ≤ 16) :
    (recordFieldRead s).toNat =
      (sparseGet 0 s.station.cells s.port.select.toNat).toNat +
        256 * (sparseGet false s.station.committed s.port.select.toNat).toNat +
        512 * effectivePart s.station.effective s.port.select.toNat := by
  have fits := effectivePart_lt s.station.effective period dead s.port.select.toNat
  exact (congrArg BitVec.toNat (if_pos field)).trans (recordFieldWord_toNat _ _ _ fits)

/-- Field 9 returns the lock mark and lock-in-effect (R136). -/
theorem recordFieldRead_lock_toNat (s : State) (lock : s.port.select.toNat = 9) :
    (recordFieldRead s).toNat = s.station.lockMark.toNat + 512 * s.station.lockInEffect.toNat := by
  have selected : recordFieldRead s =
      recordFieldWord (if s.station.lockMark then 1 else 0) false (if s.station.lockInEffect then 1 else 0) := by
    simp [recordFieldRead, lock]
  rw [selected, recordFieldWord_toNat _ _ _ (by split <;> decide)]
  cases s.station.lockMark <;> cases s.station.lockInEffect <;> rfl

/-- Fields from 10 on return 0 (R136). -/
theorem recordFieldRead_of_none (s : State) (beyond : 10 ≤ s.port.select.toNat) : recordFieldRead s = 0 := by
  have noCell : ¬s.port.select.toNat ≤ 8 := by omega
  have noLock : ¬s.port.select.toNat = 9 := by omega
  simp only [recordFieldRead, noCell, noLock, if_false]

/-! ### INPUT and STATUS -/

/-- The state after a read of INPUT that is taken, but for the place it may have freed (R130). -/
def inputRead (s : State) : State :=
  s.withPort { s.port with data := portRead s 1, input := s.port.input.tail }

/-- The state after a read of STATUS that is taken (R131). -/
def statusRead (s : State) : State :=
  s.withPort { s.port with data := portRead s 2, overflow := false }

theorem readInput_of_asserted (s : State) (asserted : s.terminalReset = true) : readInput s = returnWord 0 s :=
  (if_pos asserted).trans (by rw [portRead_of_asserted s asserted])

theorem readStatus_of_asserted (s : State) (asserted : s.terminalReset = true) : readStatus s = returnWord 0 s :=
  (if_pos asserted).trans (by rw [portRead_of_asserted s asserted])

theorem readInput_of_released (s : State) (released : s.terminalReset = false) :
    readInput s = freePlaces (decide (16 ≤ s.port.input.length)) (inputRead s) :=
  if_neg (Bool.eq_false_iff.mp released)

theorem readStatus_of_released (s : State) (released : s.terminalReset = false) : readStatus s = statusRead s :=
  if_neg (Bool.eq_false_iff.mp released)

theorem inputRead_onlyChanges (s : State) : OnlyChanges [.input, .data] s (inputRead s) := by
  intro p hp
  cases p <;> simp [SamePart, inputRead] at hp ⊢

theorem statusRead_onlyChanges (s : State) : OnlyChanges [.input, .data] s (statusRead s) := by
  intro p hp
  cases p <;> simp [SamePart, statusRead] at hp ⊢

/-- A read at rest that replaces the word returned alone makes no step due and raises no flag. -/
theorem atEvent_returnWord (f : State → State) (s : State) (w : Word) (rest : AtRest s)
    (effect : f (s.withEvent (some (observe s))) = returnWord w (s.withEvent (some (observe s)))) :
    atEvent f s = returnWord w s :=
  atEvent_of_quiet f s _ rest effect rfl rfl rfl

/-- A read of an empty INPUT queue returns NONE and leaves the queue as it is (R130). -/
theorem readInput_of_empty (s : State) (released : s.terminalReset = false) (empty : s.port.input = []) :
    readInput s = returnWord 0 s := by
  have nothing : portRead s 1 = 0 := by
    obtain ⟨-, input, -⟩ := portRead_of_released s released
    simp only [input, inputWord, empty]
  have room : decide (16 ≤ s.port.input.length) = false := by simp [empty]
  have unchanged : s.port.input.tail = s.port.input := by simp [empty]
  rw [readInput_of_released s released, room, inputRead, nothing, unchanged]
  rfl

/-- The read of INPUT at rest: behind it the event may go on to a PASS that waits for the place (R59). -/
theorem exec_input_of_released (s : State) (rest : AtRest s) (released : s.terminalReset = false) :
    ∃ e, exec .input s = .next (closeEvent ((inputRead s).withEvent e)) := by
  let b := s.withEvent (some (observe s))
  obtain ⟨e, freed⟩ := freePlaces_eq (decide (16 ≤ b.port.input.length)) (inputRead b)
  refine ⟨e, congrArg Host.Outcome.next ?_⟩
  rw [atEvent_of_atRest readInput s rest, readInput_of_released b released, freed]
  rfl

/-- The read of STATUS at rest: no step and no comparison reads the overflow flag (R131). -/
theorem exec_status_of_released (s : State) (rest : AtRest s) (released : s.terminalReset = false) :
    exec .status s = .next (statusRead s) :=
  congrArg Host.Outcome.next
    (atEvent_of_quiet readStatus s (statusRead s) rest (readStatus_of_released _ released) rfl rfl rfl)

/-- Settles O54: the word of each location by its layout, and the reads of INPUT and STATUS with the reset input asserted and
released. -/
theorem portReadsReturnTheirWords : Obligations.PortReadsReturnTheirWords := by
  intro s e f parts
  refine ⟨portRead_of_asserted s, fun released => ?words, fun rest asserted c read => ?inReset, fun rest released => ?taken⟩
  case words =>
    obtain ⟨order, -, -, space, events, record, sixth, seventh⟩ := portRead_of_released s released
    rw [space, events, record]
    refine ⟨order, sixth, seventh, localFree_toNat s, ?_, fun k flag listed => ?_, fun period dead part listed => ?_,
      recordFieldRead_lock_toNat s, recordFieldRead_of_none s⟩
    · rw [BitVec.toNat_setWidth_of_le (by decide)]
      exact s.port.flags.isLt
    · rw [flagSet, flagBit_of_getElem? k flag listed, BitVec.getLsbD_setWidth]
      by_cases low : k < 16
      · simp [low]
      · simp [low, BitVec.getLsbD_of_ge s.port.flags k (by omega)]
    · have station : (match e.station with | some n => n.val | none => 31) = effectivePart e 0 := by
        cases own : e.station <;> simp [effectivePart, own]
      have layout : parts = (List.range 9).map (effectivePart e) := congrArg₂ List.cons station rfl
      rw [layout] at listed
      obtain ⟨field, rfl⟩ := effectivePart_of_getElem? e f part listed
      exact recordFieldRead_toNat s field period dead
  case inReset =>
    have quiet (g : State → State) := atEvent_returnWord g s 0 rest
    rcases read with rfl | rfl
    · exact congrArg Host.Outcome.next (quiet readInput (readInput_of_asserted _ asserted))
    · exact congrArg Host.Outcome.next (quiet readStatus (readStatus_of_asserted _ asserted))
  case taken =>
    obtain ⟨-, input, status, -⟩ := portRead_of_released s released
    refine ⟨fun empty => ?_, fun record remaining queue => ?_, fun held => ?_⟩
    · exact congrArg Host.Outcome.next (atEvent_returnWord readInput s 0 rest (readInput_of_empty _ released empty))
    · obtain ⟨o, ran⟩ := exec_input_of_released s rest released
      have frame := ((inputRead_onlyChanges s).trans (onlyChanges_withEvent _ o)).trans (onlyChanges_closeEvent _)
      have data : (closeEvent ((inputRead s).withEvent o)).port.data = portRead s 1 := by simp [inputRead]
      refine ⟨_, ran, by simp [inputRead, queue], by simp [inputRead], data, ?_, frame, (FlagsAfter.of_flags rfl).closed⟩
      have returned : portRead s 1 = recordWord record := by simp only [input, inputWord, queue]
      rw [data, returned]
      exact recordWord_toNat record
    · refine ⟨_, exec_status_of_released s rest released, rfl, rfl, statusRead_onlyChanges s, rfl, ?_⟩
      exact (congrArg BitVec.toNat status).trans (statusWord_toNat s held)

end Sys2Proof.Machine
end

section
/-! PROOFS. The station record: what leaves it alone, what a programming operation makes of it, and that no step takes a bit
from 1 to 0. -/

namespace Sys2Proof.Machine

/-! ### The part's own steps leave the record alone -/

@[simp] theorem glyphUnit_station (ch : Channel) (slot : Byte) (s : State) : (glyphUnit ch slot s).station = s.station := by
  unfold glyphUnit
  split <;> simp

@[simp] theorem fullWipe_station (s : State) : (fullWipe s).station = s.station := by
  unfold fullWipe
  split <;> rfl

@[simp] theorem wipeUnit_station (ch : Channel) (s : State) : (wipeUnit ch s).station = s.station := by
  unfold wipeUnit
  split <;> simp

@[simp] theorem passUnit_station (ch : Channel) (payload : BitVec 12) (s : State) :
    (passUnit ch payload s).station = s.station := by
  unfold passUnit
  split <;> simp

@[simp] theorem superviseUnit_station (ch : Channel) (f : Supervise) (s : State) :
    (superviseUnit ch f s).station = s.station := by
  cases f with
  | take | give => simp [superviseUnit, superviseEffect]
  | area | lock | route | timing => exact State.withChan_station _ ch _

@[simp] theorem repaintUnit_station (ch : Channel) (s : State) : (repaintUnit ch s).station = s.station := by
  unfold repaintUnit
  split <;> simp

@[simp] theorem carryUnit_station (ch : Channel) (s : State) : (carryUnit ch s).station = s.station := by
  unfold carryUnit
  split <;> simp

@[simp] theorem grantTo_station (ch : Channel) (s : State) : (grantTo ch s).station = s.station := by
  rcases grantTo_cases ch s with ⟨-, e⟩ | ⟨-, -, e⟩ | ⟨-, p, c, -, e⟩ <;> rw [e]
  · simp
  · rfl
  · rcases placeSpan_cases ⟨ch, p⟩ ((s.withEngine { s.engine with arbiter := ch }).withChan ch c) with
      ⟨-, placed⟩ | ⟨-, placed⟩ <;> rw [placed] <;> simp

theorem runInternal_station (i : Internal) (s : State) : (runInternal i s).station = s.station := by
  cases i with
  | decode ch | droppedRow ch | render | grantLine | restore => simp [runInternal]
  | grant =>
    show (grantStep s).station = s.station
    unfold grantStep
    split <;> simp

/-! ### The commands that leave the record alone -/

@[simp] theorem freePlaces_station (wasFull : Bool) (s : State) : (freePlaces wasFull s).station = s.station := by
  rcases freePlaces_cases wasFull s with e | e <;> simp [e]

theorem settleExpires_station (s : State) : (settleExpires s).station = s.station := by
  unfold settleExpires
  split <;> simp

theorem supplyMoves_station (millivolts : Nat) (s : State) : (supplyMoves millivolts s).station = s.station := by
  unfold supplyMoves
  dsimp only
  split <;> simp

theorem cycleStarts_station (s : State) : (cycleStarts s).station = s.station := by
  unfold cycleStarts
  split
  · rfl
  · split <;> simp

theorem windowOpens_station (s : State) : (windowOpens s).station = s.station := by
  unfold windowOpens
  split
  · rfl
  · split
    · rfl
    · simp [primingWindow]
    · unfold liveWindow
      split <;> rfl

theorem releaseReset_station (s : State) : (releaseReset s).station = s.station := by
  unfold releaseReset
  split <;> simp [startRunning]

theorem takeWord_station (w : Word) (s : State) : (takeWord w s).station = s.station := by
  unfold takeWord
  split <;> rfl

theorem readInput_station (s : State) : (readInput s).station = s.station := by
  unfold readInput
  dsimp only
  split <;> simp [returnWord]

theorem readStatus_station (s : State) : (readStatus s).station = s.station := by
  unfold readStatus
  dsimp only
  split <;> rfl

theorem clearLocal_station (s : State) : (clearLocal s).station = s.station := by
  simp [clearLocal]

theorem resumeLocal_station (s : State) : (resumeLocal s).station = s.station := by
  unfold resumeLocal
  split <;> rfl

theorem scan_station (horizontal vertical : BitVec 16) (s : State) : (scan horizontal vertical s).station = s.station := by
  unfold scan
  dsimp only
  split
  · rfl
  · split <;> simp

theorem startCharacter_station (low : Nat) (s : State) : (startCharacter low s).station = s.station := by
  unfold startCharacter
  split <;> rfl

/-- The check character of a good frame acts on the channels and the line interface (R123, R125, R126). -/
theorem checkCharacter_station (r : Reception) (b : Byte) (s : State) : (checkCharacter r b s).station = s.station := by
  unfold checkCharacter
  split
  · rfl
  · split
    · unfold acceptOrders
      dsimp only
      split
      · rfl
      · split <;> rfl
    · simp [acceptClear]
    · rfl

theorem arrive_station (c : LineChar) (s : State) : (arrive c s).station = s.station := by
  unfold arrive
  split
  · rcases assemble_cases c (s.withLineIf { s.lineIf with receiver := if c.stop then .idle else .waitHigh }) with
      ⟨l, e⟩ | ⟨r, e⟩ <;> rw [e]
    · rfl
    · exact checkCharacter_station r c.data _
  · rfl

theorem checkArrives_station (kind : FrameKind) (b : Byte) (s : State) : (checkArrives kind b s).station = s.station := by
  unfold checkArrives
  split
  · exact arrive_station _ s
  · rfl

theorem composeReply_station (s : State) : (composeReply s).station = s.station := by
  unfold composeReply
  split <;> simp

theorem endReply_station (s : State) : (endReply s).station = s.station := by
  unfold endReply
  split <;> rfl

theorem lineHigh_station (s : State) : (lineHigh s).station = s.station := by
  unfold lineHigh
  split <;> rfl

/-! ### A programming operation -/

/-- The cell bits that a programming operation sets in a field (R138). -/
def cellBits : Program → Nat → Byte
  | .write field value, f => if f = field.toNat then value else 0
  | .commit _, _ => 0
  | .lock, _ => 0

/-- Whether a programming operation sets the committed mark of a field (R138). -/
def commitsField : Program → Nat → Bool
  | .write _ _, _ => false
  | .commit field, f => decide (f = field.toNat)
  | .lock, _ => false

/-- The stores of the record hold their canonical form. -/
structure CanonicalRecord (r : Station) : Prop where
  cells : SparseWf 0 r.cells
  committed : SparseWf false r.committed

theorem programmed_canonical (operation : Program) {r : Station} (form : CanonicalRecord r) :
    CanonicalRecord (programmed operation r) := by
  obtain ⟨cells, committed⟩ := form
  cases operation with
  | write field value => exact ⟨sparseSet_wf 0 _ _ _ cells, committed⟩
  | commit field => exact ⟨cells, sparseSet_wf false _ _ _ committed⟩
  | lock => exact ⟨cells, committed⟩

/-- The cells after an operation are those before it with the operation's bits set (R138). -/
theorem programmed_cells (operation : Program) {r : Station} (form : CanonicalRecord r) (f : Nat) :
    sparseGet 0 (programmed operation r).cells f = sparseGet 0 r.cells f ||| cellBits operation f := by
  cases operation with
  | write field value =>
    rw [programmed, sparseGet_set 0 _ _ _ _ form.cells, cellBits]
    by_cases here : f = field.toNat <;> simp [here]
  | commit field | lock => simp [programmed, cellBits]

/-- The committed marks after an operation are those before it with the operation's mark set (R138). -/
theorem programmed_committed (operation : Program) {r : Station} (form : CanonicalRecord r) (f : Nat) :
    sparseGet false (programmed operation r).committed f =
      (sparseGet false r.committed f || commitsField operation f) := by
  cases operation with
  | commit field =>
    rw [programmed, sparseGet_set false _ _ _ _ form.committed, commitsField]
    by_cases here : f = field.toNat <;> simp [here]
  | write field value | lock => simp [programmed, commitsField]

/-- RECORD-LOCK alone sets the lock mark (R138). -/
theorem programmed_lockMark (operation : Program) (r : Station) :
    (programmed operation r).lockMark = (r.lockMark || decide (operation = .lock)) := by
  cases operation <;> simp [programmed]

theorem programmed_programming (operation : Program) (r : Station) : (programmed operation r).programming = none := by
  cases operation <;> rfl

/-- An operation that runs ends in the record it programs (R138). -/
theorem programEnds_of_running (s : State) (p : Programming) (running : s.station.programming = some p) :
    programEnds s = s.withStation (programmed p.operation s.station) := by
  simp only [programEnds, running]

/-! ### Bits that only rise -/

/-- Every bit set in one record is set in the other: cell bits, committed marks and the lock mark. -/
structure RecordRises (r q : Station) : Prop where
  cells : ∀ f k, (sparseGet 0 r.cells f).getLsbD k = true → (sparseGet 0 q.cells f).getLsbD k = true
  committed : ∀ f, sparseGet false r.committed f = true → sparseGet false q.committed f = true
  lockMark : r.lockMark = true → q.lockMark = true

theorem RecordRises.refl (r : Station) : RecordRises r r := ⟨fun _ _ => id, fun _ => id, id⟩

theorem RecordRises.trans {r q u : Station} (h : RecordRises r q) (k : RecordRises q u) : RecordRises r u :=
  ⟨fun f n set => k.cells f n (h.cells f n set), fun f set => k.committed f (h.committed f set),
    fun set => k.lockMark (h.lockMark set)⟩

/-- A programming operation sets bits and clears none (R138). -/
theorem programmed_rises (operation : Program) {r : Station} (form : CanonicalRecord r) :
    RecordRises r (programmed operation r) := by
  refine ⟨fun f k set => ?_, fun f set => ?_, fun set => ?_⟩
  · rw [programmed_cells operation form, BitVec.getLsbD_or, set, Bool.true_or]
  · rw [programmed_committed operation form, set, Bool.true_or]
  · rw [programmed_lockMark, set, Bool.true_or]

/-- The record of a state holds its form and every bit that is set in the record `r`. -/
structure HoldsRecord (r : Station) (s : State) : Prop where
  form : CanonicalRecord s.station
  rises : RecordRises r s.station

section

variable {r : Station} {s t : State}

/-- The cells, the committed marks and the lock mark alone are spoken of. -/
theorem HoldsRecord.of_parts (hs : HoldsRecord r s) (cells : t.station.cells = s.station.cells)
    (committed : t.station.committed = s.station.committed) (lockMark : t.station.lockMark = s.station.lockMark) :
    HoldsRecord r t := by
  obtain ⟨⟨cellsForm, committedForm⟩, cellBit, mark, lock⟩ := hs
  rw [← cells] at cellsForm cellBit
  rw [← committed] at committedForm mark
  rw [← lockMark] at lock
  exact ⟨⟨cellsForm, committedForm⟩, cellBit, mark, lock⟩

theorem HoldsRecord.of_station (hs : HoldsRecord r s) (same : t.station = s.station) : HoldsRecord r t :=
  hs.of_parts (by rw [same]) (by rw [same]) (by rw [same])

/-- Power-on reset keeps the cells and the marks (R136, R139). -/
theorem powerOn_holdsRecord (hs : HoldsRecord r s) : HoldsRecord r (powerOn s) := by
  have loaded : (powerOn s).station = loadedStation s.station := by
    simp [powerOn, startRunning, resetBlocks]
  exact hs.of_parts (by rw [loaded]; rfl) (by rw [loaded]; rfl) (by rw [loaded]; rfl)

theorem request_holdsRecord (operation : Program) (hs : HoldsRecord r s) : HoldsRecord r (request operation s) := by
  rcases request_cases operation s with e | ⟨-, e⟩ <;> rw [e]
  · exact hs
  · exact hs.of_parts rfl rfl rfl

theorem programEnds_holdsRecord (hs : HoldsRecord r s) : HoldsRecord r (programEnds s) := by
  cases running : s.station.programming with
  | none => simpa only [programEnds, running] using hs
  | some p =>
    rw [programEnds_of_running s p running]
    exact ⟨programmed_canonical p.operation hs.form, hs.rises.trans (programmed_rises p.operation hs.form)⟩

theorem whenTaken_holdsRecord (f : State → State) (hs : HoldsRecord r s) (hf : HoldsRecord r (f s)) :
    HoldsRecord r (whenTaken f s) := by
  unfold whenTaken
  split
  · exact hs
  · exact hf

/-- Of the direct effects the end of a programming operation alone writes the record, and the resets load from it. -/
theorem directEffect_holdsRecord (c : Instr) (hs : HoldsRecord r s) : HoldsRecord r (directEffect c s) := by
  have taken (f : State → State) (hf : HoldsRecord r (f s)) := whenTaken_holdsRecord f hs hf
  have same {t : State} (h : t.station = s.station) : HoldsRecord r t := hs.of_station h
  cases c with
  | powerOnReset => exact powerOn_holdsRecord hs
  | terminalReset => exact hs.of_parts rfl rfl rfl
  | programmingOperationEnd => exact programEnds_holdsRecord hs
  | recordWrite | recordCommit | recordLock => exact taken _ (request_holdsRecord _ hs)
  | terminalResetRelease => exact same (releaseReset_station s)
  | supplyDroop millivolts | supplyRecover millivolts => exact same (supplyMoves_station millivolts s)
  | settleTimerExpiry => exact same (settleExpires_station s)
  | cycleStart => exact same (cycleStarts_station s)
  | addressWindow => exact same (windowOpens_station s)
  | order word => exact taken _ (same (takeWord_station word s))
  | input => exact same (readInput_station s)
  | status => exact same (readStatus_station s)
  | clearLocal => exact taken _ (same (clearLocal_station s))
  | resume => exact taken _ (same (resumeLocal_station s))
  | panelOn => exact taken _ (same (by simp [panelOn]))
  | eventAck | eventEnable | panelOff | recordSelect => exact taken _ (same rfl)
  | scanEvent horizontal vertical => exact same (scan_station horizontal vertical s)
  | characterStart low => exact same (startCharacter_station low s)
  | characterArrival samples => exact same (arrive_station _ s)
  | orders check | clear check | poll check => exact same (checkArrives_station _ check s)
  | turnaroundGapExpiry => exact same (composeReply_station s)
  | replySent => exact same (endReply_station s)
  | lineGoesHigh => exact same (lineHigh_station s)
  | _ => exact hs

/-- A timer that runs down leaves what is programmed alone. -/
theorem runsDown_holdsRecord (hs : HoldsRecord r s) (h : RunsDown s t) : HoldsRecord r t := by
  cases h <;> exact hs.of_parts rfl rfl rfl

theorem holdsRecord_keptByParts (r : Station) : KeptByParts (HoldsRecord r) where
  queue _ _ hs := hs.of_station rfl
  event _ _ hs := hs.of_station rfl
  ends _ hs := hs.of_station (by simp)
  own s i hs _ := hs.of_station (runInternal_station i s)
  direct _ c hs _ := directEffect_holdsRecord c hs
  runsDown _ _ hs h := runsDown_holdsRecord hs h

/-- The record of a state whose stores hold their canonical form. -/
theorem canonicalRecord_of_memoryWf (memory : MemoryWf s) : CanonicalRecord s.station := by
  obtain ⟨-, -, -, -, ⟨cells, -⟩, ⟨committed, -⟩⟩ := memory
  exact ⟨cells, committed⟩

end

/-- Settles O57, by the induction over the parts of a step. -/
theorem recordBitsOnlyRise : Obligations.RecordBitsOnlyRise := by
  intro s t memory e
  have holds : HoldsRecord s.station s := ⟨canonicalRecord_of_memoryWf memory, .refl _⟩
  obtain ⟨-, cells, committed, lockMark⟩ := (holdsRecord_keptByParts s.station).step s t holds e
  exact ⟨cells, committed, lockMark⟩

end Sys2Proof.Machine
end

section
/-! PROOFS. The station record at rest: a programming request that starts or is ignored, and the end of an operation. -/

namespace Sys2Proof.Machine

/-! ### Requests -/

/-- The field that a request names can be programmed; RECORD-LOCK names none (R137). -/
def requestOpen (r : Station) : Program → Bool
  | .write field _ => fieldOpen r field
  | .commit field => fieldOpen r field
  | .lock => true

theorem fieldOpen_iff (r : Station) (field : BitVec 4) :
    fieldOpen r field = true ↔ field.toNat ≤ 8 ∧ sparseGet false r.committed field.toNat = false := by
  simp [fieldOpen]

theorem programmable_iff (r : Station) :
    programmable r = true ↔ r.programming = none ∧ r.lockInEffect = false := by
  simp [programmable]

/-- The state with an operation just started, 2 ms of it to run (R137). -/
def withOperation (operation : Program) (s : State) : State :=
  s.withStation { s.station with programming := some { operation := operation, left := 8000 } }

/-- A request starts its operation on a record free to be programmed in its field, and is ignored elsewhere (R137). -/
theorem request_eq (operation : Program) (s : State) :
    request operation s =
      if (programmable s.station && requestOpen s.station operation) = true then withOperation operation s else s := by
  cases operation <;> rfl

theorem request_withEvent (operation : Program) (s : State) (e : Option Before) :
    request operation (s.withEvent e) = (request operation s).withEvent e := by
  rw [request_eq, request_eq, State.withEvent_station]
  split <;> rfl

/-- A request at rest makes no step due and raises no flag: no step and no comparison reads the record (R60, R74, R132). -/
theorem atEvent_request (operation : Program) (s : State) (rest : AtRest s) (released : s.terminalReset = false) :
    atEvent (whenTaken (request operation)) s = request operation s := by
  refine atEvent_whenTaken (request operation) s rest released (request_withEvent operation s _) ?_ ?_ ?_ <;>
    rw [request_eq] <;> split <;> rfl

/-- RECORD-WRITE, RECORD-COMMIT and RECORD-LOCK as commands: the event of their request (R137). -/
def requestCommand (operation : Program) (s : State) : Host.Outcome State Fault Refusal :=
  .next (atEvent (whenTaken (request operation)) s)

theorem exec_request (a : BitVec 12) (s : State) :
    exec (.recordWrite a) s = requestCommand (.write (fieldOf a) (valueOf a)) s ∧
      exec (.recordCommit a) s = requestCommand (.commit (fieldOf a)) s ∧
      exec (.recordLock a) s = requestCommand .lock s := ⟨rfl, rfl, rfl⟩

/-- A request at rest on a record that is free to be programmed in its field starts its operation (R137). -/
theorem requestCommand_of_open (operation : Program) (s : State) (rest : AtRest s) (released : s.terminalReset = false)
    (idle : s.station.programming = none) (unlocked : s.station.lockInEffect = false)
    (isOpen : requestOpen s.station operation = true) :
    requestCommand operation s = .next (withOperation operation s) := by
  have free : programmable s.station = true := (programmable_iff s.station).mpr ⟨idle, unlocked⟩
  rw [requestCommand, atEvent_request operation s rest released, request_eq, free, isOpen]
  rfl

/-- A request at rest for a field that cannot be programmed is ignored (R137). -/
theorem requestCommand_of_shut (operation : Program) (s : State) (rest : AtRest s) (released : s.terminalReset = false)
    (shut : requestOpen s.station operation = false) : requestCommand operation s = .next s := by
  rw [requestCommand, atEvent_request operation s rest released, request_eq, shut, Bool.and_false]
  rfl

/-- While an operation runs, and while lock-in-effect is set, every request is ignored (R137). -/
theorem requestCommand_of_busy (operation : Program) (s : State) (rest : AtRest s) (released : s.terminalReset = false)
    (busy : s.station.programming.isSome = true ∨ s.station.lockInEffect = true) :
    requestCommand operation s = .next s := by
  have blocked : programmable s.station = false := by
    refine Bool.eq_false_iff.mpr fun free => ?_
    obtain ⟨idle, unlocked⟩ := (programmable_iff s.station).mp free
    rcases busy with running | locked
    · simp [idle] at running
    · simp [unlocked] at locked
  rw [requestCommand, atEvent_request operation s rest released, request_eq, blocked, Bool.false_and]
  rfl

/-! ### The end of an operation -/

/-- PROGRAMMING_OPERATION_END at rest leaves the programmed record and raises no flag (R138). -/
theorem exec_programmingOperationEnd (s : State) (p : Programming) (rest : AtRest s)
    (running : s.station.programming = some p) :
    exec .programmingOperationEnd s = .next (s.withStation (programmed p.operation s.station)) :=
  congrArg Host.Outcome.next
    (atEvent_of_quiet programEnds s _ rest (programEnds_of_running (s.withEvent _) p running) rfl rfl rfl)

/-- An operation changes the record and ends; the effective copy and lock-in-effect are those of the last reset (R136). -/
theorem programmed_onlyChanges (operation : Program) (s : State) :
    OnlyChanges [.cells, .programming] s (s.withStation (programmed operation s.station)) := by
  intro p hp
  cases p with
  | effective => cases operation <;> exact ⟨rfl, rfl⟩
  | cells | programming => simp at hp
  | _ => simp [SamePart]

/-- Settles O56: a request finds its record and field free or not, and an operation's end sets its bits. -/
theorem recordIsProgrammed : Obligations.RecordIsProgrammed := by
  intro s a memory _ rest released field fieldFree starts write
  obtain ⟨recordWrite, recordCommit, recordLock⟩ := exec_request a s
  have openField : fieldOpen s.station field = true ↔ fieldFree := fieldOpen_iff s.station field
  simp only [starts, recordWrite, recordCommit, recordLock]
  refine ⟨fun idle unlocked => ?free, fun busy => ?busy, fun p running => ?ends⟩
  case free =>
    have begins (operation : Program) := requestCommand_of_open operation s rest released idle unlocked
    have ignored (operation : Program) := requestCommand_of_shut operation s rest released
    refine ⟨begins .lock rfl, fun free => ?_, fun taken => ?_⟩
    · have isOpen := openField.mpr free
      exact ⟨begins write isOpen, begins (.commit field) isOpen⟩
    · have shut := Bool.eq_false_iff.mpr (mt openField.mp taken)
      exact ⟨ignored write shut, ignored (.commit field) shut⟩
  case busy =>
    have ignored (operation : Program) := requestCommand_of_busy operation s rest released busy
    exact ⟨ignored write, ignored (.commit field), ignored .lock⟩
  case ends =>
    have form := canonicalRecord_of_memoryWf memory
    refine ⟨_, exec_programmingOperationEnd s p rest running, programmed_programming p.operation s.station,
      fun f => (programmed_cells p.operation form f).trans ?_, fun f => (programmed_committed p.operation form f).trans ?_,
      programmed_lockMark p.operation s.station, programmed_onlyChanges p.operation s⟩
    · cases p.operation with
      | write g value => by_cases here : f = g.toNat <;> simp [cellBits, here]
      | commit g | lock => exact BitVec.or_zero
    · cases p.operation <;> rfl

end Sys2Proof.Machine
end

section
/-! PROOFS. The step, the events of a sender and the idle quarter: what a step takes, what comes before a command from outside,
and the timers that run down. -/

namespace Sys2Proof.Machine

/-- Settles O1: a step takes the front command off the queue and carries it out. -/
theorem stepRunsTheFrontCommand : Obligations.StepRunsTheFrontCommand := by
  intro c rest s queue
  simp only [step, queue]

/-! ### Commands from outside and own steps -/

/-- A press that does not come with freed places is an event like any other (R117). -/
theorem atPress_of_closed (f : State → State) (s : State) (closed : placesOpen s = false) : atPress f s = atEvent f s := by
  rcases atPress_cases f s with ⟨freed, -⟩ | ⟨-, e⟩
  · rw [closed] at freed
    cases freed
  · exact e

/-- An event that comes to the end of the one before is the same event on the state in which that one has ended. -/
theorem atEvent_finish (f : State → State) (s : State) (shut : resumeOpen s = false) (rest : AtRest (finish s)) :
    atEvent f s = atEvent f (finish s) := by
  rw [atEvent_of_closed f s shut, atEvent_of_closed f _ (resumeOpen_of_atRest _ rest), finish_of_atRest _ rest]

/-- Settles O3: either event finishes the one before, and at rest there is none to finish. -/
theorem outsideEventFinishesTheOneBefore : Obligations.OutsideEventFinishesTheOneBefore := by
  intro c s outside shut press rest
  by_cases scans : ∃ horizontal vertical, c = .scanEvent horizontal vertical
  · obtain ⟨horizontal, vertical, rfl⟩ := scans
    have closed : placesOpen s = false := Bool.eq_false_iff.mpr fun freed => press freed horizontal vertical rfl
    show Host.Outcome.next (atPress _ s) = .next (atPress _ (finish s))
    rw [atPress_of_closed _ s closed, atPress_of_atRest _ _ rest, atEvent_finish _ s shut rest]
  · have event (t : State) : exec c t = .next (atEvent (directEffect c) t) := by
      rcases exec_of_outside c t outside with e | ⟨horizontal, vertical, scan, -⟩
      · exact e
      · exact absurd ⟨horizontal, vertical, scan⟩ scans
    rw [event, event, atEvent_finish _ s shut rest]

/-- The command of an order is that of a context-only order or of a granted one (R3, R50). -/
theorem exec_orderCommand_cases (ch : Channel) (kind : OrderKind) (s : State) :
    exec (orderCommand ch kind) s = .next (contextCommand kind ch s) ∨
      exec (orderCommand ch kind) s = .next (grantedCommand kind ch s) := by
  cases kind with
  | nop | move | newline | margin | mode | clip => exact .inl rfl
  | _ => exact .inr rfl

/-- Settles O4: each of the part's own steps asks first whether it is due. -/
theorem stepNotDueChangesNothing : Obligations.StepNotDueChangesNothing := by
  intro s ch kind
  refine ⟨fun idle => ?_, fun none => ?_, fun idle => ?_, fun idle => ?_, fun unreached ungranted => ?_⟩
  · simp only [exec, execRestoreStep, idle, stepWhen_false]
  · simp only [exec, execArbiterGrant, none, Option.isSome_none, stepWhen_false]
  · simp only [exec, execSpanRender, idle, stepWhen_false]
  · simp only [exec, execDroppedRowHandling, idle, stepWhen_false]
  · rcases exec_orderCommand_cases ch kind s with e | e <;> rw [e]
    · simp only [contextCommand, unreached, stepWhen_false]
    · simp only [grantedCommand, unreached, ungranted, Bool.or_self, stepWhen_false]

/-! ### The idle quarter -/

/-- The cycle moves on one quarter where neither its slot nor the next cycle starts (R79). -/
theorem tickCycle_of_between (s : State)
    (between : ∀ c, s.sustain.cycle = some c →
      c.place + 1 ≠ slotStart s.sustain.effectiveTiming ∧ c.place + 1 < s.sustain.effectiveTiming.period) :
    tickCycle s =
      s.withSustain { s.sustain with cycle := s.sustain.cycle.map fun c => { c with place := c.place + 1 } } := by
  cases running : s.sustain.cycle with
  | none =>
    simp only [tickCycle, running, Option.map_none]
    rw [← running, State.withSustain_self]
  | some c =>
    obtain ⟨slot, period⟩ := between c running
    simp only [tickCycle, running, slot, Nat.not_le.mpr period, if_false, Option.map_some]

/-- The settle timer runs down where it does not end (R75). -/
theorem tickSettle_of_left (s : State) (left : ∀ n, s.sustain.settle = some n → 1 < n) :
    tickSettle s = s.withSustain { s.sustain with settle := s.sustain.settle.map fun n => n - 1 } := by
  cases running : s.sustain.settle with
  | none =>
    simp only [tickSettle, running, Option.map_none]
    rw [← running, State.withSustain_self]
  | some n => simp only [tickSettle, running, Nat.not_le.mpr (left n running), if_false, Option.map_some]

/-- The programming operation runs on where it does not end (R137). -/
theorem tickProgram_of_left (s : State) (left : ∀ p, s.station.programming = some p → 1 < p.left) :
    tickProgram s =
      s.withStation
        { s.station with programming := s.station.programming.map fun p => { p with left := p.left - 1 } } := by
  cases running : s.station.programming with
  | none =>
    simp only [tickProgram, running, Option.map_none]
    rw [← running, State.withStation_self]
  | some p => simp only [tickProgram, running, Nat.not_le.mpr (left p running), if_false, Option.map_some]

/-- The scan timer runs down where it does not end (R111). -/
theorem tickScan_of_left (s : State) (left : ∀ n, s.touch.timer = some n → 1 < n) :
    tickScan s = s.withTouch { s.touch with timer := s.touch.timer.map fun n => n - 1 } := by
  cases running : s.touch.timer with
  | none =>
    simp only [tickScan, running, Option.map_none]
    rw [← running, State.withTouch_self]
  | some n => simp only [tickScan, running, Nat.not_le.mpr (left n running), if_false, Option.map_some]

theorem tickReply_of_idle (s : State) (idle : s.lineIf.reply = .idle) : tickReply s = s := by
  simp only [tickReply, idle]

/-- Settles O2: no step is due and no event is in progress, and each timer in its turn runs down. -/
theorem idleBlockLetsAQuarterPass : Obligations.IdleBlockLetsAQuarterPass := by
  intro s queue rest between settle scan program reply
  have quarter : step s = .next (tick s) := by
    simp only [step, queue, idleStep, rest.2, finish_of_atRest s rest]
  rw [quarter, tick, tickCycle_of_between s between, tickSettle_of_left _ (by exact settle),
    tickProgram_of_left _ (by exact program), tickScan_of_left _ (by exact scan), tickReply_of_idle _ (by exact reply)]
  rfl

/-! ### The machine after reset -/

/-- After reset both channels are empty, nothing is held and the scanner is IDLE, so that no step is due (R58, R139). -/
theorem reset_atRest : AtRest State.reset :=
  ⟨rfl, (dueStep_none State.reset).mpr ⟨rfl, rfl, rfl, rfl, rfl, rfl, rfl⟩⟩

/-- Every FIFO, queue and count is empty after reset (R58, R124). -/
theorem reset_withinCapacities : WithinCapacities State.reset := by
  refine ⟨?_, ?_, ?_, ?_, ?_, ?_, rfl⟩ <;> exact Nat.zero_le _

/-- The timings of a new part lie in their ranges (R86, R135). -/
theorem reset_timingLegal : TimingLegal State.reset := by
  refine ⟨?_, ?_, ?_⟩ <;> decide

/-- Power-on reset leaves the machine after reset as it is, so that what power-on reset gives holds of it (R139). -/
theorem powerOn_reset : powerOn State.reset = State.reset := rfl

/-- Settles O60: power-on reset gives the invariants of channels and panel, and every queue and timing starts in its range. -/
theorem resetMeetsTheInvariants : Obligations.ResetMeetsTheInvariants := by
  have stores : StoresSound State.reset := (storesSound_iff _).mpr ⟨reset_memoryWf, trivial⟩
  have responses : ResponsesLegal State.reset := powerOn_reset ▸ powerOn_legal State.reset
  have coherent : Coherent State.reset := powerOn_reset ▸ powerOn_coherent State.reset stores
  obtain ⟨panel, current, follows⟩ := (coherent_iff _).mp coherent
  exact ⟨reset_memoryWf, trivial, reset_withinCapacities, responses, panel, current, ⟨nofun, rfl, nofun⟩,
    reset_timingLegal, trivial, follows, reset_atRest⟩

end Sys2Proof.Machine
end

section
/-! PROOFS. The strike queue through every step: what a part of a step may do to it, and that its capacity and its form are
kept. -/

namespace Sys2Proof.Machine

/-! ### Moves of the queue -/

/-- What a part of a step does to the strike queue: nothing, two items of one row-group handed over where 2 are free (R12, R65,
R93), the purge at a loss or a reset (R68), the purge by a full-panel wipe (R31), or the issue of the head item (R69). -/
inductive QueueMove (items : List StrikeItem) : List StrikeItem → Prop
  | stays : QueueMove items items
  | handed (y : Coord) (g : Group) (erase write : Cells) (room : items.length + 2 ≤ 64) :
    QueueMove items (handPair y g erase write items)
  | purged : QueueMove items []
  | wiped : QueueMove items [.bulk]
  | issued : QueueMove items items.tail

theorem QueueMove.of_eq {items after : List StrikeItem} (h : after = items) : QueueMove items after := h ▸ .stays

/-- An item handed over takes at most one place (R64). -/
theorem handOver_length (kind : StrikeKind) (y : Coord) (g : Group) (cells : Cells) (items : List StrikeItem) :
    (handOver kind y g cells items).length ≤ items.length + 1 := by
  rcases handOver_cases kind y g cells items with ⟨-, e⟩ | ⟨-, held, newest, e⟩ | ⟨-, -, e⟩ <;> rw [e]
  · exact Nat.le_succ _
  · simp only [List.length_append, List.length_dropLast, List.length_singleton]
    omega
  · rw [List.length_append, List.length_singleton]

theorem handPair_length (y : Coord) (g : Group) (erase write : Cells) (items : List StrikeItem) :
    (handPair y g erase write items).length ≤ items.length + 2 :=
  Nat.le_trans (handOver_length .write y g write _) (Nat.succ_le_succ (handOver_length .erase y g erase items))

/-- Every move keeps the queue within its 64 items (R63). -/
theorem QueueMove.within {items after : List StrikeItem} (h : QueueMove items after) (within : items.length ≤ 64) :
    after.length ≤ 64 := by
  cases h with
  | stays => exact within
  | handed y g erase write room => exact Nat.le_trans (handPair_length y g erase write items) room
  | purged => exact Nat.zero_le _
  | wiped => simp
  | issued => exact Nat.le_trans (by simp) within

/-- A queue of legal form keeps it when its oldest item is issued (R62, R64, R67). -/
theorem queueLegal_tail (items : List StrikeItem) (legal : QueueLegal items) : QueueLegal items.tail := by
  obtain ⟨nonempty, chain, oldest⟩ := legal
  refine ⟨fun k y g cells h => nonempty k y g cells (List.mem_of_mem_tail h), ?_, fun h => oldest (List.mem_of_mem_tail h)⟩
  match items, chain with
  | [], _ => rfl
  | [_], _ => rfl
  | _ :: _ :: _, chain => exact ((Bool.and_eq_true _ _).mp chain).2

/-- Every move keeps the form of the queue (R62, R64, R67). -/
theorem QueueMove.legal {items after : List StrikeItem} (h : QueueMove items after) (legal : QueueLegal items) :
    QueueLegal after := by
  cases h with
  | stays => exact legal
  | handed y g erase write => exact handOver_queueLegal _ _ _ _ _ (handOver_queueLegal _ _ _ _ _ legal)
  | purged => exact ⟨nofun, rfl, nofun⟩
  | wiped => exact ⟨by simp, rfl, by simp⟩
  | issued => exact queueLegal_tail items legal

/-! ### Renders and losses -/

/-- Two free items are room for two (R63). -/
theorem room_of_strikeFree (s : State) (free : 2 ≤ strikeFree s) : s.strikes.items.length + 2 ≤ 64 := by
  simp only [strikeFree, Config.strikeCapacity] at free
  omega

/-- A span that renders has room for its strikes, or needs none (R7, R8, R12). -/
theorem drawSpan_queueMove (h : Held) (s : State) (due : renderCondition s h = true) :
    QueueMove s.strikes.items (drawSpan h s).strikes.items := by
  rcases drawSpan_cases h s with ⟨-, e⟩ | ⟨nonempty, -, ⟨-, e⟩ | ⟨fresh, e⟩⟩ <;> rw [e]
  · exact .stays
  · exact .stays
  · have need : needsRoom s h = true := (needsRoom_iff s h).mpr ⟨fresh, nonempty⟩
    have served : engineServed s = true := by simpa [renderCondition, need] using due
    exact .handed _ _ _ _ (room_of_strikeFree s (of_decide_eq_true ((Bool.and_eq_true _ _).mp served).1))

theorem renderSpan_queueMove (h : Held) (s : State) (due : renderCondition s h = true) :
    QueueMove s.strikes.items (renderSpan h s).strikes.items := by
  rw [renderSpan_strikes]
  exact drawSpan_queueMove h s due

/-- A span of a stale row hands nothing over (R12). -/
theorem renderHeld_of_allStale (s : State) (stale : ∀ y, isStale s y = true) : (renderHeld s).strikes = s.strikes := by
  cases held : s.engine.held with
  | none => rw [renderHeld_of_none s held]
  | some h =>
    rw [renderHeld_of_some s h held, renderSpan_strikes]
    rcases drawSpan_cases h s with ⟨-, e⟩ | ⟨-, -, ⟨-, e⟩ | ⟨fresh, -⟩⟩
    · rw [e]
    · exact e
    · exact absurd ((stale h.span.row).symm.trans fresh) (by decide)

/-- A loss purges the queue, also where a held span renders at it (R9, R68). -/
theorem lose_queueMove (s : State) : QueueMove s.strikes.items (lose s).strikes.items := by
  by_cases dark : s.sustain.panelState = .dark
  · rw [lose_of_dark s dark]
    exact .stays
  · rw [lose_of_running s dark, renderHeld_of_allStale _ (isStale_darkened s)]
    exact .purged

/-! ### The part's own steps -/

theorem fullWipe_queueMove (s : State) : QueueMove s.strikes.items (fullWipe s).strikes.items := by
  unfold fullWipe
  split
  · exact .wiped
  · exact .stays

/-- Of the units only a full-panel wipe moves the queue (R31). -/
theorem carryUnit_queueMove (ch : Channel) (s : State) : QueueMove s.strikes.items (carryUnit ch s).strikes.items := by
  unfold carryUnit
  split
  · exact .of_eq (by rw [(glyphUnit_same ch _ s).strikes])
  · unfold wipeUnit
    split
    · exact .of_eq (by simp)
    · rw [(completeOrder_same ch _).strikes]
      exact fullWipe_queueMove s
  · exact .of_eq (by rw [(passUnit_same ch _ s).strikes])
  · rename_i f _
    refine .of_eq ?_
    cases f <;> simp [superviseUnit, superviseEffect, areaEffect, lockEffect, routeEffect, timingEffect]
  · unfold repaintUnit
    rw [(completeOrder_same ch _).strikes]
    split <;> exact .of_eq (by simp)
  · exact .stays

theorem grantTo_queueMove (ch : Channel) (s : State) : QueueMove s.strikes.items (grantTo ch s).strikes.items := by
  rcases grantTo_cases ch s with ⟨-, e⟩ | ⟨-, -, e⟩ | ⟨-, p, c, -, e⟩ <;> rw [e]
  · exact carryUnit_queueMove ch (s.withEngine { s.engine with arbiter := ch })
  · exact .stays
  · have kept := (SameCoherence.withChan ch c (s.withEngine { s.engine with arbiter := ch })).strikes
    rcases placeSpan_cases { channel := ch, span := p } _ with ⟨due, e⟩ | ⟨-, e⟩ <;> rw [e]
    · have move := renderSpan_queueMove _ _ due
      rw [kept] at move
      exact move
    · exact .of_eq (congrArg Strikes.items kept)

/-- A restore step is made where 2 items are free (R66, R93). -/
theorem restoreStep_queueMove (s : State) (due : restoreDue s = true) :
    QueueMove s.strikes.items (restoreStep s).strikes.items := by
  obtain ⟨cur, current⟩ := current_of_restoreDue s due
  have room : 2 ≤ strikeFree s := of_decide_eq_true ((Bool.and_eq_true _ _).mp ((Bool.and_eq_true _ _).mp due).1).2
  rw [restoreStep_some s cur current]
  simp only [takeRow_frame, State.withTracker_strikes, State.withStrikes_strikes, restoreItems]
  exact .handed _ _ _ _ (room_of_strikeFree s room)

theorem runInternal_queueMove (i : Internal) (s : State) (due : isDue i s = true) :
    QueueMove s.strikes.items (runInternal i s).strikes.items := by
  cases i with
  | decode ch | droppedRow ch => exact .of_eq (by simp [runInternal])
  | render =>
    show QueueMove _ (renderHeld s).strikes.items
    simp only [isDue, renderDue] at due
    cases held : s.engine.held with
    | none => simp [held] at due
    | some h =>
      rw [held] at due
      rw [renderHeld_of_some s h held]
      exact renderSpan_queueMove h s due
  | grant =>
    show QueueMove _ (grantStep s).strikes.items
    unfold grantStep
    split
    · exact .stays
    · exact grantTo_queueMove _ s
  | grantLine => exact grantTo_queueMove .lineCh s
  | restore => exact restoreStep_queueMove s due

/-! ### Commands -/

theorem supplyBelow_queueMove (s : State) : QueueMove s.strikes.items (supplyBelow s).strikes.items := by
  unfold supplyBelow
  split
  · exact .stays
  · exact .stays
  · exact lose_queueMove (s.withSustain { s.sustain with supplyState := .low })

theorem compareSupply_queueMove (s : State) : QueueMove s.strikes.items (compareSupply s).strikes.items := by
  unfold compareSupply
  split
  · exact supplyBelow_queueMove s
  · split <;> exact .of_eq (by simp)

theorem supplyMoves_queueMove (millivolts : Nat) (s : State) :
    QueueMove s.strikes.items (supplyMoves millivolts s).strikes.items := by
  unfold supplyMoves
  dsimp only
  split
  · exact .stays
  · exact compareSupply_queueMove (s.withSustain { s.sustain with supply := millivolts })

theorem settleExpires_queueMove (s : State) : QueueMove s.strikes.items (settleExpires s).strikes.items := by
  unfold settleExpires
  split <;> exact .of_eq (by simp)

theorem cycleStarts_queueMove (s : State) : QueueMove s.strikes.items (cycleStarts s).strikes.items := by
  unfold cycleStarts
  split
  · exact .stays
  · split
    · exact lose_queueMove s
    · exact .stays

/-- A window on a LIVE panel issues the head item (R69). -/
theorem windowOpens_queueMove (s : State) : QueueMove s.strikes.items (windowOpens s).strikes.items := by
  unfold windowOpens
  split
  · exact .stays
  · split
    · exact .stays
    · exact .of_eq (by simp [primingWindow])
    · cases head : s.strikes.items with
      | nil =>
        rw [liveWindow_of_empty s head]
        exact .of_eq head
      | cons item rest =>
        rw [liveWindow_of_head s item rest head]
        exact .issued

theorem releaseReset_queueMove (s : State) : QueueMove s.strikes.items (releaseReset s).strikes.items := by
  unfold releaseReset
  split
  · exact compareSupply_queueMove ((s.withTerminalReset false).withTouch _)
  · exact .stays

/-- At the end of power-on reset the supply is LOW, so that it cannot be lost again (R75, R139). -/
theorem powerOn_items (s : State) : (powerOn s).strikes.items = [] := by
  rw [powerOn_eq]
  rfl

theorem whenTaken_queueMove (f : State → State) (s : State) (h : QueueMove s.strikes.items (f s).strikes.items) :
    QueueMove s.strikes.items (whenTaken f s).strikes.items := by
  unfold whenTaken
  split
  · exact .stays
  · exact h

theorem directEffect_queueMove (c : Instr) (s : State) : QueueMove s.strikes.items (directEffect c s).strikes.items := by
  have taken (f : State → State) := whenTaken_queueMove f s
  have same {t : State} (h : SameCoherence s t) : QueueMove s.strikes.items t.strikes.items := .of_eq (by rw [h.strikes])
  cases c with
  | powerOnReset =>
    show QueueMove _ (powerOn s).strikes.items
    rw [powerOn_items]
    exact .purged
  | terminalReset => exact .purged
  | terminalResetRelease => exact releaseReset_queueMove s
  | supplyDroop millivolts | supplyRecover millivolts => exact supplyMoves_queueMove millivolts s
  | settleTimerExpiry => exact settleExpires_queueMove s
  | cycleStart => exact cycleStarts_queueMove s
  | addressWindow => exact windowOpens_queueMove s
  | panelOn => exact taken _ (.of_eq (by simp [panelOn]))
  | eventAck | eventEnable | recordSelect | panelOff => exact taken _ .stays
  | order word => exact taken _ (same (takeWord_same word s))
  | input => exact same (readInput_same s)
  | status => exact same (readStatus_same s)
  | clearLocal => exact taken _ (same (clearLocal_same s))
  | resume => exact taken _ (same (resumeLocal_same s))
  | recordWrite | recordCommit | recordLock => exact taken _ (same (request_same _ s))
  | programmingOperationEnd => exact same (programEnds_same s)
  | scanEvent horizontal vertical => exact same (scan_same horizontal vertical s)
  | characterStart low => exact same (startCharacter_same low s)
  | characterArrival samples => exact same (arrive_same _ s)
  | orders check | clear check | poll check => exact same (checkArrives_same _ check s)
  | turnaroundGapExpiry => exact same (composeReply_same s)
  | replySent => exact same (endReply_same s)
  | lineGoesHigh => exact same (lineHigh_same s)
  | _ => exact .stays

/-- What every move of the queue keeps, every step keeps. -/
theorem queue_keptByParts (R : List StrikeItem → Prop) (moves : ∀ a b, QueueMove a b → R a → R b) :
    KeptByParts fun s => R s.strikes.items where
  queue _ _ hs := hs
  event _ _ hs := hs
  ends s hs := by simpa using hs
  own s i hs due := moves _ _ (runInternal_queueMove i s due) hs
  direct s c hs _ := moves _ _ (directEffect_queueMove c s) hs
  runsDown s t hs h := by cases h <;> exact hs

end Sys2Proof.Machine
end

section
/-! PROOFS. The ranges of the sustain timing, the divider count and the touch record through every step. -/

namespace Sys2Proof.Machine

/-! ### The ranges -/

/-- A timing lies in the ranges of R84 and R85. -/
def TimingInRange (t : Timing) : Prop := 40 ≤ t.period ∧ t.period ≤ 160 ∧ 1 ≤ t.dead ∧ t.dead ≤ 16

theorem timingLegal_iff (s : State) :
    TimingLegal s ↔
      TimingInRange s.sustain.pendingTiming ∧ TimingInRange s.sustain.effectiveTiming ∧
        s.sustain.divider < windowDivider s := Iff.rfl

/-- The divider is at least 1, so that a count of 0 lies below it (R81). -/
theorem windowDivider_pos (s : State) : 0 < windowDivider s := by
  unfold windowDivider
  cases s.station.effective.divider <;> decide

/-- The count after a cycle start lies below the divider (R80). -/
theorem nextDivider_lt (d count : Nat) (h : 0 < d) : nextDivider d count < d := by
  unfold nextDivider
  split <;> assumption

/-- A TIMING is clamped into the ranges (R85). -/
theorem clamped_inRange (period dead : Nat) :
    TimingInRange { period := clampPeriod period, dead := clampDead dead } := by
  simp only [TimingInRange, clampPeriod, clampDead]
  omega

/-- The timing that a station record gives lies in the ranges (R86, R135). -/
theorem stationTiming_inRange (r : Station) : TimingInRange (stationTiming (effectiveOf r.cells r.committed)) := by
  obtain ⟨-, -, -, period, dead, -⟩ := effectiveOf_decoded r
  simp only [TimingInRange, stationTiming, period, dead]
  cases sparseGet false r.committed 3 <;> cases sparseGet false r.committed 4 <;>
    simp only [if_true, Bool.false_eq_true, if_false] <;> grind

/-- The filter count is 2 or more (R113). -/
theorem two_le_filterCount (s : State) : 2 ≤ filterCount s := by
  unfold filterCount
  cases s.station.effective.filter <;> decide

/-- Counts of a record under way lie below the filter count, which ends them (R113, R114, R115). -/
theorem filterStep_touchLegal (n : Nat) (t : TouchRecord) (r : ScanResult) (two : 2 ≤ n) (legal : TouchLegal n t) :
    TouchLegal n (filterStep n t r).1 := by
  have restarts (c d : TouchCell) (other : d ≠ c) : TouchLegal n (.held c (some (d, 1)) 0) := by
    refine ⟨by omega, fun e k pair => ?_⟩
    cases pair
    exact ⟨other, Nat.le_refl 1, two⟩
  have settled (c : TouchCell) : TouchLegal n (.held c none 0) := ⟨by omega, nofun⟩
  cases t with
  | idle =>
    cases r with
    | cell c => exact ⟨Nat.le_refl 1, two⟩
    | nothing | ambiguous => trivial
  | candidate cell count =>
    obtain ⟨-, below⟩ := legal
    cases r with
    | nothing | ambiguous => trivial
    | cell d =>
      simp only [filterStep, filterCandidate]
      split
      · split
        · exact settled cell
        · exact ⟨Nat.le_add_left 1 count, by omega⟩
      · exact ⟨Nat.le_refl 1, two⟩
  | held cell candidate gone =>
    obtain ⟨below, counts⟩ := legal
    cases r with
    | nothing =>
      simp only [filterStep, filterHeld]
      split
      · trivial
      · exact ⟨by omega, nofun⟩
    | ambiguous => exact ⟨below, counts⟩
    | cell d =>
      simp only [filterStep, filterHeld]
      split
      · exact settled cell
      · rename_i other
        cases candidate with
        | none => exact restarts cell d other
        | some pair =>
          obtain ⟨e, k⟩ := pair
          obtain ⟨-, -, short⟩ := counts e k rfl
          dsimp only
          split
          · split
            · exact settled d
            · refine ⟨by omega, fun f j same => ?_⟩
              cases same
              exact ⟨other, Nat.le_add_left 1 k, by omega⟩
          · exact restarts cell d other

/-! ### What keeps them -/

/-- The values keep their ranges from one state to the other. -/
structure KeepsRanges (s t : State) : Prop where
  timing : TimingLegal s → TimingLegal t
  touch : TouchLegal (filterCount s) s.touch.record → TouchLegal (filterCount t) t.touch.record

/-- The values and the counts that bound them are the same in both states. -/
structure SameRanges (s t : State) : Prop where
  pending : t.sustain.pendingTiming = s.sustain.pendingTiming
  effective : t.sustain.effectiveTiming = s.sustain.effectiveTiming
  divider : t.sustain.divider = s.sustain.divider
  record : t.touch.record = s.touch.record
  copy : t.station.effective = s.station.effective

theorem SameRanges.refl (s : State) : SameRanges s s := ⟨rfl, rfl, rfl, rfl, rfl⟩

theorem SameRanges.trans {s t u : State} (h : SameRanges s t) (k : SameRanges t u) : SameRanges s u :=
  ⟨k.pending.trans h.pending, k.effective.trans h.effective, k.divider.trans h.divider, k.record.trans h.record,
    k.copy.trans h.copy⟩

/-- Changing no block in which a value lies leaves the values alone. -/
theorem SameRanges.of_blocks {s t : State} (sustain : t.sustain = s.sustain) (touch : t.touch = s.touch)
    (station : t.station = s.station) : SameRanges s t :=
  ⟨by rw [sustain], by rw [sustain], by rw [sustain], by rw [touch], by rw [station]⟩

theorem SameRanges.keeps {s t : State} (h : SameRanges s t) : KeepsRanges s t := by
  constructor
  · rw [timingLegal_iff, timingLegal_iff, windowDivider, windowDivider, h.pending, h.effective, h.divider, h.copy]
    exact id
  · rw [filterCount, filterCount, h.record, h.copy]
    exact id

theorem KeepsRanges.trans {s t u : State} (h : KeepsRanges s t) (k : KeepsRanges t u) : KeepsRanges s u :=
  ⟨fun legal => k.timing (h.timing legal), fun legal => k.touch (h.touch legal)⟩

/-- A change of the sustain generator alone leaves the touch record alone. -/
theorem KeepsRanges.withSustain (s : State) (g : Sustain) (timing : TimingLegal s → TimingLegal (s.withSustain g)) :
    KeepsRanges s (s.withSustain g) := ⟨timing, id⟩

/-! ### The part's own steps -/

theorem superviseEffect_ranges (f : Supervise) (s : State) : KeepsRanges s (superviseEffect f s) := by
  cases f with
  | take | give =>
    exact SameRanges.keeps
      (.of_blocks (by simp [superviseEffect]) (by simp [superviseEffect]) (by simp [superviseEffect]))
  | area | lock | route => exact SameRanges.keeps (.of_blocks rfl rfl rfl)
  | timing period dead =>
    exact .withSustain s _ fun ⟨_, effective, divider⟩ => ⟨clamped_inRange period.toNat dead.toNat, effective, divider⟩

theorem completeOrder_ranges (ch : Channel) (s : State) : SameRanges s (completeOrder ch s) :=
  .of_blocks (by simp) (by simp) (by simp)

theorem carryUnit_ranges (ch : Channel) (s : State) : KeepsRanges s (carryUnit ch s) := by
  unfold carryUnit
  split
  · refine SameRanges.keeps (.of_blocks (glyphUnit_same ch _ s).sustain ?_ (by simp))
    unfold glyphUnit
    split <;> simp
  · refine SameRanges.keeps (.of_blocks ?_ ?_ (by simp)) <;> unfold wipeUnit fullWipe <;> split <;> (try split) <;> simp
  · refine SameRanges.keeps (.of_blocks (passUnit_same ch _ s).sustain ?_ (by simp))
    unfold passUnit
    split <;> simp
  · exact (superviseEffect_ranges _ s).trans (completeOrder_ranges ch _).keeps
  · refine SameRanges.keeps (.of_blocks ?_ ?_ (by simp)) <;> unfold repaintUnit <;> split <;> simp
  · exact (SameRanges.refl s).keeps

theorem grantTo_ranges (ch : Channel) (s : State) : KeepsRanges s (grantTo ch s) := by
  have named : SameRanges s (s.withEngine { s.engine with arbiter := ch }) := .of_blocks rfl rfl rfl
  rcases grantTo_cases ch s with ⟨-, e⟩ | ⟨-, -, e⟩ | ⟨-, p, c, -, e⟩ <;> rw [e]
  · exact named.keeps.trans (carryUnit_ranges ch _)
  · exact named.keeps
  · rcases placeSpan_cases { channel := ch, span := p } _ with ⟨-, e⟩ | ⟨-, e⟩ <;> rw [e] <;>
      exact SameRanges.keeps (.of_blocks (by simp) (by simp) (by simp))

theorem runInternal_ranges (i : Internal) (s : State) : KeepsRanges s (runInternal i s) := by
  cases i with
  | decode ch | droppedRow ch | render | restore =>
    exact SameRanges.keeps (.of_blocks (by simp [runInternal]) (by simp [runInternal]) (by simp [runInternal]))
  | grant =>
    show KeepsRanges s (grantStep s)
    unfold grantStep
    split
    · exact (SameRanges.refl s).keeps
    · exact grantTo_ranges _ s
  | grantLine => exact grantTo_ranges .lineCh s

/-! ### The supply, the sustain and the resets -/

theorem lose_ranges (s : State) : SameRanges s (lose s) := by
  by_cases dark : s.sustain.panelState = .dark
  · rw [lose_of_dark s dark]
    exact .refl s
  · have stopped := lose_sustain s dark
    exact ⟨by rw [stopped], by rw [stopped], by rw [stopped], by simp, by simp⟩

theorem supplyBelow_ranges (s : State) : SameRanges s (supplyBelow s) := by
  unfold supplyBelow
  split
  · exact .refl s
  · constructor <;> rfl
  · exact .trans (by constructor <;> rfl) (lose_ranges _)

theorem compareSupply_ranges (s : State) : SameRanges s (compareSupply s) := by
  unfold compareSupply
  split
  · exact supplyBelow_ranges s
  · split
    · unfold supplyAbove
      split <;> constructor <;> rfl
    · exact .refl s

theorem supplyMoves_ranges (millivolts : Nat) (s : State) : SameRanges s (supplyMoves millivolts s) := by
  unfold supplyMoves
  dsimp only
  split
  · constructor <;> rfl
  · exact .trans (by constructor <;> rfl) (compareSupply_ranges _)

/-- At a sustain start pending timing becomes effective and the divider count is 0 (R78). -/
theorem startWhenReady_ranges (s : State) : KeepsRanges s (startWhenReady s) := by
  by_cases ready : readyToStart s.sustain
  · rw [startWhenReady_of_ready s ready]
    exact ⟨fun ⟨pending, _, _⟩ => ⟨pending, pending, windowDivider_pos s⟩, id⟩
  · rw [startWhenReady_of_not_ready s ready]
    exact (SameRanges.refl s).keeps

theorem settleExpires_ranges (s : State) : KeepsRanges s (settleExpires s) := by
  unfold settleExpires
  split
  · exact .trans (SameRanges.keeps (by constructor <;> rfl)) (startWhenReady_ranges _)
  · exact (SameRanges.refl s).keeps

theorem panelOn_ranges (s : State) : KeepsRanges s (panelOn s) :=
  .trans (SameRanges.keeps (by constructor <;> rfl)) (startWhenReady_ranges _)

/-- At a cycle start pending timing becomes effective and the divider count advances (R80). -/
theorem cycleStarts_ranges (s : State) : KeepsRanges s (cycleStarts s) := by
  unfold cycleStarts
  split
  · exact (SameRanges.refl s).keeps
  · split
    · exact (lose_ranges s).keeps
    · exact .withSustain s _ fun ⟨pending, _, _⟩ => ⟨pending, pending, nextDivider_lt _ _ (windowDivider_pos s)⟩

theorem windowOpens_ranges (s : State) : SameRanges s (windowOpens s) := by
  unfold windowOpens
  split
  · exact .refl s
  · split
    · exact .refl s
    · unfold primingWindow
      constructor <;> simp [openSlot]
    · unfold liveWindow
      split <;> constructor <;> rfl

/-- After a reset the timings are the station's, the divider count is 0 and the touch record is IDLE (R86, R113). -/
theorem resetState_ranges (s : State) (engine : Engine) (timer : Option Nat) (supplyState : SupplyState)
    (settle : Option Nat) (asserted : Bool) :
    KeepsRanges s (resetState s engine timer supplyState settle asserted) :=
  ⟨fun _ => ⟨stationTiming_inRange s.station, stationTiming_inRange s.station, windowDivider_pos _⟩, fun _ => trivial⟩

theorem powerOn_ranges (s : State) : KeepsRanges s (powerOn s) := by
  rw [powerOn_eq]
  exact resetState_ranges s _ _ _ _ _

theorem releaseReset_ranges (s : State) : SameRanges s (releaseReset s) := by
  unfold releaseReset
  split
  · exact .trans (by constructor <;> rfl) (compareSupply_ranges _)
  · exact .refl s

/-! ### The other commands -/

theorem scan_ranges (horizontal vertical : BitVec 16) (s : State) : KeepsRanges s (scan horizontal vertical s) := by
  unfold scan
  dsimp only
  split
  · exact SameRanges.keeps (by constructor <;> rfl)
  · have filtered (u : State) (sustain : u.sustain = s.sustain) (station : u.station = s.station)
        (record : u.touch.record =
          (filterStep (filterCount s) s.touch.record (scanResult horizontal vertical)).1) : KeepsRanges s u := by
      constructor
      · rw [timingLegal_iff, timingLegal_iff, windowDivider, windowDivider, sustain, station]
        exact id
      · intro legal
        have count : filterCount u = filterCount s := by rw [filterCount, station, filterCount]
        rw [count, record]
        exact filterStep_touchLegal _ _ _ (two_le_filterCount s) legal
    split
    · exact filtered _ rfl rfl rfl
    · exact filtered _ (by simp) (by simp) (by simp)

theorem programEnds_ranges (s : State) : SameRanges s (programEnds s) := by
  unfold programEnds
  split
  · exact .refl s
  · rename_i p _
    cases operation : p.operation <;> constructor <;> rfl

theorem checkCharacter_touch (r : Reception) (b : Byte) (s : State) : (checkCharacter r b s).touch = s.touch := by
  unfold checkCharacter
  split
  · rfl
  · split
    · unfold acceptOrders
      dsimp only
      split
      · rfl
      · split <;> rfl
    · obtain ⟨e, cleared⟩ := acceptClear_eq s
      simp [cleared, lineCleared]
    · rfl

theorem arrive_touch (c : LineChar) (s : State) : (arrive c s).touch = s.touch := by
  unfold arrive
  split
  · rcases assemble_cases c (s.withLineIf { s.lineIf with receiver := if c.stop then .idle else .waitHigh }) with
      ⟨l, e⟩ | ⟨r, e⟩ <;> rw [e]
    · rfl
    · exact checkCharacter_touch r c.data _
  · rfl

theorem checkArrives_touch (kind : FrameKind) (b : Byte) (s : State) : (checkArrives kind b s).touch = s.touch := by
  unfold checkArrives
  split
  · exact arrive_touch _ s
  · rfl

theorem freePlaces_touch (wasFull : Bool) (s : State) : (freePlaces wasFull s).touch = s.touch := by
  rcases freePlaces_cases wasFull s with e | e <;> simp [e]

theorem takeWord_touch (w : Word) (s : State) : (takeWord w s).touch = s.touch := by
  unfold takeWord
  split <;> rfl

theorem readInput_touch (s : State) : (readInput s).touch = s.touch := by
  unfold readInput
  dsimp only
  split <;> simp [freePlaces_touch, returnWord]

theorem readStatus_touch (s : State) : (readStatus s).touch = s.touch := by
  unfold readStatus
  dsimp only
  split <;> rfl

theorem resumeLocal_touch (s : State) : (resumeLocal s).touch = s.touch := by
  unfold resumeLocal
  split <;> rfl

theorem startCharacter_touch (low : Nat) (s : State) : (startCharacter low s).touch = s.touch := by
  unfold startCharacter
  split <;> rfl

theorem composeReply_touch (s : State) : (composeReply s).touch = s.touch := by
  unfold composeReply
  split <;> simp [freePlaces_touch]

theorem endReply_touch (s : State) : (endReply s).touch = s.touch := by
  unfold endReply
  split <;> rfl

theorem lineHigh_touch (s : State) : (lineHigh s).touch = s.touch := by
  unfold lineHigh
  split <;> rfl

theorem whenTaken_ranges (f : State → State) (s : State) (h : KeepsRanges s (f s)) : KeepsRanges s (whenTaken f s) := by
  unfold whenTaken
  split
  · exact (SameRanges.refl s).keeps
  · exact h

theorem directEffect_ranges (c : Instr) (s : State) : KeepsRanges s (directEffect c s) := by
  have taken (f : State → State) := whenTaken_ranges f s
  have same {t : State} (h : SameCoherence s t) (touch : t.touch = s.touch) (station : t.station = s.station) :
      KeepsRanges s t := SameRanges.keeps (.of_blocks h.sustain touch station)
  cases c with
  | powerOnReset => exact powerOn_ranges s
  | terminalReset => exact resetState_ranges s { s.engine with held := none, arbiter := .localCh } none .low none true
  | terminalResetRelease => exact (releaseReset_ranges s).keeps
  | supplyDroop millivolts | supplyRecover millivolts => exact (supplyMoves_ranges millivolts s).keeps
  | settleTimerExpiry => exact settleExpires_ranges s
  | cycleStart => exact cycleStarts_ranges s
  | addressWindow => exact (windowOpens_ranges s).keeps
  | panelOn => exact taken _ (panelOn_ranges s)
  | panelOff => exact taken _ (SameRanges.keeps (by constructor <;> rfl))
  | eventAck | eventEnable | recordSelect => exact taken _ (SameRanges.keeps (by constructor <;> rfl))
  | order word => exact taken _ (same (takeWord_same word s) (takeWord_touch word s) (takeWord_station word s))
  | input => exact same (readInput_same s) (readInput_touch s) (readInput_station s)
  | status => exact same (readStatus_same s) (readStatus_touch s) (readStatus_station s)
  | clearLocal => exact taken _ (same (clearLocal_same s) (by simp [clearLocal]) (clearLocal_station s))
  | resume => exact taken _ (same (resumeLocal_same s) (resumeLocal_touch s) (resumeLocal_station s))
  | recordWrite | recordCommit | recordLock =>
    refine taken _ ?_
    rcases request_cases _ s with e | ⟨-, e⟩ <;> rw [e] <;> exact SameRanges.keeps (by constructor <;> rfl)
  | programmingOperationEnd => exact (programEnds_ranges s).keeps
  | scanEvent horizontal vertical => exact scan_ranges horizontal vertical s
  | characterStart low =>
    exact same (startCharacter_same low s) (startCharacter_touch low s) (startCharacter_station low s)
  | characterArrival samples => exact same (arrive_same _ s) (arrive_touch _ s) (arrive_station _ s)
  | orders check | clear check | poll check =>
    exact same (checkArrives_same _ check s) (checkArrives_touch _ check s) (checkArrives_station _ check s)
  | turnaroundGapExpiry => exact same (composeReply_same s) (composeReply_touch s) (composeReply_station s)
  | replySent => exact same (endReply_same s) (endReply_touch s) (endReply_station s)
  | lineGoesHigh => exact same (lineHigh_same s) (lineHigh_touch s) (lineHigh_station s)
  | _ => exact (SameRanges.refl s).keeps

theorem runsDown_ranges (s t : State) (h : RunsDown s t) : SameRanges s t := by
  cases h <;> constructor <;> rfl

theorem endEvent_ranges (s : State) : SameRanges s (endEvent s) := .of_blocks (by simp) (by simp) (by simp)

theorem timingLegal_keptByParts : KeptByParts TimingLegal where
  queue _ _ hs := hs
  event _ _ hs := hs
  ends s hs := (endEvent_ranges s).keeps.timing hs
  own s i hs _ := (runInternal_ranges i s).timing hs
  direct s c hs _ := (directEffect_ranges c s).timing hs
  runsDown s t hs h := (runsDown_ranges s t h).keeps.timing hs

theorem touchLegal_keptByParts : KeptByParts fun s => TouchLegal (filterCount s) s.touch.record where
  queue _ _ hs := hs
  event _ _ hs := hs
  ends s hs := (endEvent_ranges s).keeps.touch hs
  own s i hs _ := (runInternal_ranges i s).touch hs
  direct s c hs _ := (directEffect_ranges c s).touch hs
  runsDown s t hs h := (runsDown_ranges s t h).keeps.touch hs

end Sys2Proof.Machine
end

section
/-! PROOFS. The capacities of the FIFOs, the record queues, the staging buffer and the discard count through the part's own
steps. -/

namespace Sys2Proof.Machine

/-! ### The capacities -/

/-- The line interface's queue, count and staging buffer are within their capacities (R122, R124, R128). -/
structure LineWithin (l : LineInterface) : Prop where
  upstream : l.upstream.length ≤ 16
  discards : l.discards ≤ 15
  staging : StagingWf l

/-- The capacities of section 0.4, the strike queue's apart. -/
structure QueuesWithin (s : State) : Prop where
  line : s.lineChan.fifo.length ≤ 256
  loc : s.localChan.fifo.length ≤ 64
  input : s.port.input.length ≤ 16
  lineIf : LineWithin s.lineIf

theorem withinCapacities_iff (s : State) : WithinCapacities s ↔ QueuesWithin s ∧ s.strikes.items.length ≤ 64 := by
  constructor
  · rintro ⟨line, loc, strikes, upstream, input, discards, staging⟩
    exact ⟨⟨line, loc, input, upstream, discards, staging⟩, strikes⟩
  · rintro ⟨⟨line, loc, input, upstream, discards, staging⟩, strikes⟩
    exact ⟨line, loc, strikes, upstream, input, discards, staging⟩

/-- No FIFO and no record queue grows, and the line interface stands as it was. -/
structure Drains (s t : State) : Prop where
  line : t.lineChan.fifo.length ≤ s.lineChan.fifo.length
  loc : t.localChan.fifo.length ≤ s.localChan.fifo.length
  input : t.port.input.length ≤ s.port.input.length
  lineIf : t.lineIf = s.lineIf

theorem Drains.refl (s : State) : Drains s s := ⟨Nat.le_refl _, Nat.le_refl _, Nat.le_refl _, rfl⟩

theorem Drains.trans {s t u : State} (h : Drains s t) (k : Drains t u) : Drains s u :=
  ⟨Nat.le_trans k.line h.line, Nat.le_trans k.loc h.loc, Nat.le_trans k.input h.input, k.lineIf.trans h.lineIf⟩

/-- Changing no block in which a FIFO or a queue lies makes none of them grow. -/
theorem Drains.of_blocks {s t : State} (line : t.lineChan = s.lineChan) (loc : t.localChan = s.localChan)
    (input : t.port.input = s.port.input) (lineIf : t.lineIf = s.lineIf) : Drains s t :=
  ⟨by rw [line], by rw [loc], by rw [input], lineIf⟩

theorem Drains.withChan {s : State} {ch : Channel} {c : Chan} (h : c.fifo.length ≤ (s.chan ch).fifo.length) :
    Drains s (s.withChan ch c) := by
  cases ch with
  | lineCh => exact ⟨h, Nat.le_refl _, Nat.le_refl _, rfl⟩
  | localCh => exact ⟨Nat.le_refl _, h, Nat.le_refl _, rfl⟩

theorem Drains.withSustain (s : State) (g : Sustain) : Drains s (s.withSustain g) := .of_blocks rfl rfl rfl rfl

theorem Drains.within {s t : State} (h : Drains s t) (hs : QueuesWithin s) : QueuesWithin t :=
  ⟨Nat.le_trans h.line hs.line, Nat.le_trans h.loc hs.loc, Nat.le_trans h.input hs.input, h.lineIf ▸ hs.lineIf⟩

/-! ### The words of a channel -/

/-- The words of an order leave the FIFO at its start (R48). -/
theorem decoded_fifo_length (ch : Channel) (area : Rect) (kind : OrderKind) (head : Word) (args : List Word) (c : Chan) :
    (decoded ch area kind head args c).fifo.length ≤ c.fifo.length := by
  have popped (n : Nat) (d : Chan) (same : d.fifo = c.fifo) : (popOrder n d).fifo.length ≤ c.fifo.length := by
    simp [popOrder, same]
  cases kind with
  | line =>
    show (reachLine args c).fifo.length ≤ _
    by_cases draws : drawsLine c.context (pointOf args)
    · simp [reachLine_of_drawsLine args c draws]
    · simp [reachLine_of_not_drawsLine args c draws]
  | text =>
    show (reachText head c).fifo.length ≤ _
    unfold reachText
    split <;> exact popped 0 _ rfl
  | wipe =>
    show (reachWipe ch area c).fifo.length ≤ _
    unfold reachWipe
    split <;> exact popped 0 c rfl
  | nop | newline | margin | mode | glyph | pass | repaint => exact popped 0 _ rfl
  | move | dot | block | raster => exact popped 2 _ rfl
  | clip => exact popped 4 _ rfl
  | take | give | area | lock | route | timing => exact popped _ c rfl

theorem droppedRowHandled_fifo_length (c : Chan) : (droppedRowHandled c).fifo.length ≤ c.fifo.length := by
  unfold droppedRowHandled
  split <;> simp

theorem spanRendered_fifo (c : Chan) : (spanRendered c).fifo = c.fifo := by
  unfold spanRendered
  repeat' split
  all_goals rfl

/-- A character takes at most one word of the FIFO (R40). -/
theorem nextCode_fifo_length (left : Nat) (pendingCode : Option Byte) (fifo after : List Word) (code : Byte)
    (kept : Option Byte) (h : nextCode left pendingCode fifo = some (code, kept, after)) :
    after.length ≤ fifo.length := by
  unfold nextCode at h
  split at h
  · cases h
    exact Nat.le_refl _
  · split at h
    · cases h
    · cases h
      exact Nat.le_succ _

/-- The words of a piece leave the FIFO at its grant (R28, R40). -/
theorem formSpan_fifo_length (rowsOf : Byte → List Byte) (c d : Chan) (p : Span) (h : formSpan rowsOf c = some (p, d)) :
    d.fifo.length ≤ c.fifo.length := by
  unfold formSpan at h
  split at h
  case h_8 =>
    split at h
    · cases h
    · split at h
      · cases h
      · rename_i taken
        cases h
        exact nextCode_fifo_length _ _ _ _ _ _ taken
  case h_9 => cases h
  case h_1 | h_7 =>
    cases h
    exact Nat.le_refl _
  all_goals
    simp only [Option.ite_none_right_eq_some, Option.some.injEq, Prod.mk.injEq] at h
    obtain ⟨-, -, rfl⟩ := h
    simp

/-! ### The part's own steps -/

theorem haltChannel_drains (ch : Channel) (cause : HaltCause) (s : State) : Drains s (haltChannel ch cause s) := by
  have emptied : Drains s (s.withChan ch (haltedChan cause (s.chan ch))) := .withChan (Nat.zero_le _)
  exact emptied.trans (.of_blocks (by simp [haltChannel]) (by simp [haltChannel]) (by simp [haltChannel]) (by simp))

theorem decodeStep_drains (ch : Channel) (s : State) : Drains s (decodeStep ch s) := by
  rcases decodeStep_cases ch s with ⟨-, e⟩ | ⟨cause, -, e⟩ | ⟨kind, head, args, -, e⟩ <;> rw [e]
  · exact .refl s
  · exact haltChannel_drains ch cause s
  · exact .withChan (decoded_fifo_length ..)

theorem renderSpan_drains (h : Held) (s : State) : Drains s (renderSpan h s) := by
  obtain ⟨own, other⟩ := renderSpan_chan h s
  have fifo (ch : Channel) : ((renderSpan h s).chan ch).fifo.length ≤ (s.chan ch).fifo.length := by
    by_cases here : ch = h.channel
    · rw [here, own, spanRendered_fifo]
    · rw [other ch here]
  exact ⟨fifo .lineCh, fifo .localCh, by simp, by simp⟩

theorem renderHeld_drains (s : State) : Drains s (renderHeld s) := by
  cases held : s.engine.held with
  | none =>
    rw [renderHeld_of_none s held]
    exact .refl s
  | some h =>
    rw [renderHeld_of_some s h held]
    exact renderSpan_drains h s

theorem completeOrder_drains (ch : Channel) (s : State) : Drains s (completeOrder ch s) := .withChan (Nat.le_refl _)

theorem glyphUnit_drains (ch : Channel) (slot : Byte) (s : State) : Drains s (glyphUnit ch slot s) := by
  unfold glyphUnit
  split
  · exact haltChannel_drains ch _ s
  · have engine (e : Engine) : Drains s (s.withEngine e) := .of_blocks rfl rfl rfl rfl
    refine (engine _).trans (.withChan ?_)
    simp

theorem wipeUnit_drains (ch : Channel) (s : State) : Drains s (wipeUnit ch s) := by
  unfold wipeUnit
  split
  · exact .withChan (Nat.le_refl _)
  · have wiped : Drains s (fullWipe s) := by
      unfold fullWipe
      split <;> exact .of_blocks rfl rfl rfl rfl
    exact wiped.trans (completeOrder_drains ch _)

/-- The record of a PASS joins a queue that has room (R59). -/
theorem passUnit_within (ch : Channel) (payload : BitVec 12) (s : State) (room : passRoom s ch = true)
    (hs : QueuesWithin s) : QueuesWithin (passUnit ch payload s) := by
  obtain ⟨line, loc, input, upstream, discards, staging⟩ := hs
  cases ch with
  | lineCh =>
    have free : s.port.input.length < 16 := of_decide_eq_true room
    refine (completeOrder_drains .lineCh _).within (QueuesWithin.mk ?_ ?_ ?_ ?_)
    · simpa using line
    · simpa using loc
    · simpa [joinInput] using free
    · simpa using LineWithin.mk upstream discards staging
  | localCh =>
    have free : s.lineIf.upstream.length < 16 := of_decide_eq_true room
    refine (completeOrder_drains .localCh _).within ⟨line, loc, input, ⟨?_, discards, staging⟩⟩
    simpa [joinUpstream] using free

theorem superviseEffect_drains (f : Supervise) (s : State) : Drains s (superviseEffect f s) := by
  cases f with
  | take =>
    show Drains s (takeEffect s)
    unfold takeEffect
    split
    · exact .refl s
    · exact ⟨Nat.le_refl _, Nat.le_refl _, Nat.le_refl _, rfl⟩
  | give =>
    show Drains s (giveEffect s)
    unfold giveEffect
    split <;> exact .of_blocks rfl rfl rfl rfl
  | area | lock | route | timing => exact .of_blocks rfl rfl rfl rfl

theorem repaintUnit_drains (ch : Channel) (s : State) : Drains s (repaintUnit ch s) := by
  unfold repaintUnit
  refine .trans ?_ (completeOrder_drains ch _)
  split
  · exact .of_blocks (by simp) (by simp) (by simp) (by simp)
  · exact .refl s

/-- A unit that is granted has room in the queue that it joins (R4, R59). -/
theorem carryUnit_within (ch : Channel) (s : State) (ready : unitReady s ch = true) (hs : QueuesWithin s) :
    QueuesWithin (carryUnit ch s) := by
  unfold carryUnit
  split
  · exact (glyphUnit_drains ch _ s).within hs
  · exact (wipeUnit_drains ch s).within hs
  · rename_i order
    have room : passRoom s ch = true := by simpa only [unitReady, order] using ready
    exact passUnit_within ch _ s room hs
  · exact ((superviseEffect_drains _ s).trans (completeOrder_drains ch _)).within hs
  · exact (repaintUnit_drains ch s).within hs
  · exact hs

theorem grantTo_within (ch : Channel) (s : State) (hs : QueuesWithin s) : QueuesWithin (grantTo ch s) := by
  have named : QueuesWithin (s.withEngine { s.engine with arbiter := ch }) := { hs with }
  rcases grantTo_cases ch s with ⟨ready, e⟩ | ⟨-, -, e⟩ | ⟨-, p, c, ready, e⟩ <;> rw [e]
  · exact carryUnit_within ch _ ready named
  · exact named
  · have granted := (Drains.withChan (formSpan_fifo_length _ _ _ _ ready)).within named
    rcases placeSpan_cases { channel := ch, span := p } _ with ⟨-, e⟩ | ⟨-, e⟩ <;> rw [e]
    · exact (renderSpan_drains _ _).within granted
    · exact { granted with }

theorem runInternal_within (i : Internal) (s : State) (hs : QueuesWithin s) : QueuesWithin (runInternal i s) := by
  cases i with
  | decode ch => exact (decodeStep_drains ch s).within hs
  | droppedRow ch => exact (Drains.withChan (droppedRowHandled_fifo_length _)).within hs
  | render => exact (renderHeld_drains s).within hs
  | grant =>
    show QueuesWithin (grantStep s)
    unfold grantStep
    split
    · exact hs
    · exact grantTo_within _ s hs
  | grantLine => exact grantTo_within .lineCh s hs
  | restore =>
    show QueuesWithin (restoreStep s)
    exact Drains.within (.of_blocks (by simp) (by simp) (by simp) (by simp)) hs

end Sys2Proof.Machine
end

section
/-! PROOFS. What the direct effects of the commands keep of the capacities, and the capacities and ranges through every step. -/

namespace Sys2Proof.Machine

/-! ### The frame assembler -/

/-- In HUNT nothing is staged (R120). -/
theorem LineWithin.hunting {l : LineInterface} (h : LineWithin l) : LineWithin (hunting l) :=
  ⟨h.upstream, h.discards, rfl⟩

/-- The discard count stops at 15 (R124). -/
theorem LineWithin.discarded {l : LineInterface} (h : LineWithin l) (room : Bool) : LineWithin (discardFrame room l) :=
  ⟨h.upstream, Nat.min_le_left _ _, rfl⟩

/-- The staging buffer is empty while the length is awaited (R121). -/
theorem LineWithin.address {l : LineInterface} (h : LineWithin l) (own : Option (Fin 31)) (b : Byte) :
    LineWithin (addressCharacter own b l) := by
  unfold addressCharacter
  split
  · exact h.hunting
  · split
    · exact ⟨h.upstream, h.discards, rfl, rfl⟩
    · exact h.hunting

/-- A frame of more than 32 words is not taken (R122). -/
theorem LineWithin.length {l : LineInterface} {r : Reception} (h : LineWithin l) (place : l.assembler = .length r)
    (b : Byte) : LineWithin (lengthCharacter r b l) := by
  obtain ⟨upstream, discards, staging⟩ := h
  have ⟨empty, noHalf⟩ : l.staging = [] ∧ r.high = none := by simpa only [StagingWf, place] using staging
  unfold lengthCharacter
  dsimp only
  split
  · exact LineWithin.discarded ⟨upstream, discards, staging⟩ false
  · rename_i taken
    have fits : b.toNat ≤ 32 := Nat.le_of_not_lt fun long => taken (by simp [long])
    refine ⟨upstream, discards, ?_⟩
    by_cases zero : b.toNat = 0
    · simp [StagingWf, zero, empty, noHalf]
    · simp only [StagingWf, zero, if_false]
      refine ⟨b.toNat, rfl, fits, by omega, ?_⟩
      simp [empty, noHalf]

/-- The words staged and the bytes still to come make up the frame's length (R122). -/
theorem LineWithin.data {l : LineInterface} {r : Reception} (h : LineWithin l) (place : l.assembler = .data r)
    (b : Byte) : LineWithin (dataCharacter r b l) := by
  obtain ⟨upstream, discards, staging⟩ := h
  obtain ⟨n, known, fits, one, count⟩ :
      ∃ n, r.length = some n ∧ n ≤ 32 ∧ 1 ≤ r.bytesLeft ∧
        2 * l.staging.length + (if r.high.isSome then 1 else 0) + r.bytesLeft = 2 * n := by
    simpa only [StagingWf, place] using staging
  rw [dataCharacter_eq r b l one]
  cases high : r.high with
  | none =>
    have more : r.bytesLeft ≠ 1 := by
      simp only [high, Option.isSome_none, Bool.false_eq_true, if_false] at count
      omega
    refine ⟨upstream, discards, ?_⟩
    simp only [StagingWf, afterByte, more, if_false, dataTaken]
    simp only [high, Option.isSome_none, Bool.false_eq_true, if_false] at count
    exact ⟨n, known, fits, by omega, by simp; omega⟩
  | some hi =>
    simp only [high, Option.isSome_some, if_true] at count
    refine ⟨upstream, discards, ?_⟩
    by_cases last : r.bytesLeft = 1
    · simp only [StagingWf, afterByte, last, if_true, dataTaken, List.length_append, List.length_singleton, known,
        Option.some.injEq]
      refine ⟨trivial, ?_, ?_⟩ <;> omega
    · simp only [StagingWf, afterByte, last, if_false, dataTaken]
      refine ⟨n, known, fits, by omega, ?_⟩
      simp only [List.length_append, List.length_singleton, Option.isSome_none, Bool.false_eq_true, if_false]
      omega

theorem QueuesWithin.withLineIf {s : State} (hs : QueuesWithin s) {l : LineInterface} (h : LineWithin l) :
    QueuesWithin (s.withLineIf l) := { hs with lineIf := h }

/-- A good ORDERS frame is taken where the line FIFO has room for it (R123). -/
theorem acceptOrders_within (s : State) (hs : QueuesWithin s) : QueuesWithin (acceptOrders s) := by
  unfold acceptOrders
  dsimp only
  split
  · exact hs.withLineIf (hs.lineIf.discarded false)
  · split
    · exact hs.withLineIf (hs.lineIf.discarded true)
    · rename_i room
      refine { hs.withLineIf hs.lineIf.hunting with line := ?_ }
      have before := hs.line
      simp only [fifoFree, fifoCapacity, State.chan_line, Config.lineFifoCapacity] at room
      simp only [State.withLineChan_lineChan, List.length_append]
      omega

theorem acceptClear_within (s : State) (hs : QueuesWithin s) : QueuesWithin (acceptClear s) := by
  obtain ⟨e, cleared⟩ := acceptClear_eq s
  have same : (lineCleared s).localChan = s.localChan ∧ (lineCleared s).port.input = s.port.input := by
    refine ⟨lineCleared_onlyChanges s .localChan (by decide), ?_⟩
    exact (lineCleared_onlyChanges s .input (by decide)).1
  have line : (lineCleared s).lineChan = Chan.initial := by simp [lineCleared]
  have within : QueuesWithin (lineCleared s) := by
    refine ⟨?_, ?_, ?_, ⟨Nat.zero_le _, hs.lineIf.discards, rfl⟩⟩
    · rw [line]
      exact Nat.zero_le _
    · rw [same.1]
      exact hs.loc
    · rw [same.2]
      exact hs.input
  rw [cleared]
  exact { within with }

theorem checkCharacter_within (r : Reception) (b : Byte) (s : State) (hs : QueuesWithin s) :
    QueuesWithin (checkCharacter r b s) := by
  unfold checkCharacter
  split
  · exact hs.withLineIf (hs.lineIf.discarded false)
  · split
    · exact acceptOrders_within s hs
    · exact acceptClear_within s hs
    · exact hs.withLineIf { hs.lineIf.hunting with }

theorem assemble_within (c : LineChar) (s : State) (hs : QueuesWithin s) : QueuesWithin (assemble c s) := by
  have discarded := hs.withLineIf (hs.lineIf.discarded false)
  have addressed := hs.withLineIf (hs.lineIf.address s.station.effective.station c.data)
  unfold assemble
  dsimp only
  split
  · split
    · exact hs
    · exact addressed
  · rename_i r place
    split
    · exact discarded
    · split
      · exact addressed
      · exact hs.withLineIf (hs.lineIf.length place c.data)
  · rename_i r place
    split
    · exact discarded
    · split
      · exact addressed
      · exact hs.withLineIf (hs.lineIf.data place c.data)
  · split
    · exact discarded
    · split
      · exact addressed
      · exact checkCharacter_within _ _ s hs

theorem arrive_within (c : LineChar) (s : State) (hs : QueuesWithin s) : QueuesWithin (arrive c s) := by
  unfold arrive
  split
  · exact assemble_within c _ (hs.withLineIf { hs.lineIf with })
  · exact hs

theorem checkArrives_within (kind : FrameKind) (b : Byte) (s : State) (hs : QueuesWithin s) :
    QueuesWithin (checkArrives kind b s) := by
  unfold checkArrives
  split
  · exact arrive_within _ s hs
  · exact hs

theorem startCharacter_within (low : Nat) (s : State) (hs : QueuesWithin s) : QueuesWithin (startCharacter low s) := by
  unfold startCharacter
  split
  · exact hs
  · exact hs.withLineIf { hs.lineIf with }

theorem freePlaces_within (wasFull : Bool) (s : State) (hs : QueuesWithin s) : QueuesWithin (freePlaces wasFull s) := by
  obtain ⟨e, same⟩ := freePlaces_eq wasFull s
  rw [same]
  exact { hs with }

/-- The records of a reply leave the upstream queue (R127). -/
theorem composeReply_within (s : State) (hs : QueuesWithin s) : QueuesWithin (composeReply s) := by
  unfold composeReply
  split
  · have sent : (s.lineIf.upstream.drop (replyCount s)).length ≤ 16 := by
      rw [List.length_drop]
      exact Nat.le_trans (Nat.sub_le _ _) hs.lineIf.upstream
    exact freePlaces_within _ _ (hs.withLineIf ⟨sent, Nat.zero_le _, hs.lineIf.staging⟩)
  · exact hs
  · exact hs

theorem endReply_within (s : State) (hs : QueuesWithin s) : QueuesWithin (endReply s) := by
  unfold endReply
  split
  · exact hs.withLineIf { hs.lineIf.hunting with }
  · exact hs

theorem lineHigh_within (s : State) (hs : QueuesWithin s) : QueuesWithin (lineHigh s) := by
  unfold lineHigh
  split
  · exact hs.withLineIf { hs.lineIf with }
  · exact hs

/-! ### The port and the touch panel -/

theorem whenTaken_within (f : State → State) (s : State) (hs : QueuesWithin s) (hf : QueuesWithin (f s)) :
    QueuesWithin (whenTaken f s) := by
  unfold whenTaken
  split
  · exact hs
  · exact hf

/-- A word is taken into the local FIFO where it has room (R55). -/
theorem takeWord_within (w : Word) (s : State) (hs : QueuesWithin s) : QueuesWithin (takeWord w s) := by
  unfold takeWord
  split
  · rename_i taken
    have room := taken.2
    refine { hs with loc := ?_ }
    simp only [fifoFree, fifoCapacity, State.chan_local, Config.localFifoCapacity] at room
    simp only [State.withLocalChan_localChan, List.length_append, List.length_singleton]
    omega
  · exact { hs with }

theorem readInput_within (s : State) (hs : QueuesWithin s) : QueuesWithin (readInput s) := by
  unfold readInput
  dsimp only
  split
  · exact { hs with }
  · refine freePlaces_within _ _ { hs with input := ?_ }
    exact Nat.le_trans (by simp [returnWord]) hs.input

theorem readStatus_within (s : State) (hs : QueuesWithin s) : QueuesWithin (readStatus s) := by
  unfold readStatus
  dsimp only
  split <;> exact { hs with }

theorem clearLocal_within (s : State) (hs : QueuesWithin s) : QueuesWithin (clearLocal s) := by
  have cleared : Drains s (clearLocal s) :=
    ⟨by simp [clearLocal], by simp [clearLocal, clearedChan, Chan.initial], by simp [clearLocal], by simp [clearLocal]⟩
  exact cleared.within hs

theorem resumeLocal_within (s : State) (hs : QueuesWithin s) : QueuesWithin (resumeLocal s) := by
  unfold resumeLocal
  split
  · exact { hs with }
  · exact hs

/-- A press joins a queue that has room, and is dropped otherwise (R117). -/
theorem pressUpstream_within (c : TouchCell) (s : State) (hs : QueuesWithin s) : QueuesWithin (pressUpstream c s) := by
  unfold pressUpstream
  split
  · rename_i room
    refine hs.withLineIf { hs.lineIf with upstream := ?_ }
    simpa using room
  · exact hs.withLineIf { hs.lineIf with }

theorem pressLocal_within (c : TouchCell) (s : State) (hs : QueuesWithin s) : QueuesWithin (pressLocal c s) := by
  unfold pressLocal
  split
  · rename_i room
    refine QueuesWithin.mk ?_ ?_ ?_ ?_
    · simpa using hs.line
    · simpa using hs.loc
    · simpa using room
    · simpa using hs.lineIf
  · exact { hs with }

theorem sendPress_within (c : TouchCell) (s : State) (hs : QueuesWithin s) : QueuesWithin (sendPress c s) := by
  unfold sendPress
  split
  · exact hs
  · exact pressUpstream_within c s hs
  · exact pressLocal_within c s hs
  · exact pressLocal_within c _ (pressUpstream_within c s hs)

theorem scan_within (horizontal vertical : BitVec 16) (s : State) (hs : QueuesWithin s) :
    QueuesWithin (scan horizontal vertical s) := by
  unfold scan
  dsimp only
  split
  · exact { hs with }
  · split
    · exact { hs with }
    · exact sendPress_within _ _ { hs with }

/-! ### The supply, the sustain and the resets -/

theorem startWhenReady_drains (s : State) : Drains s (startWhenReady s) := by
  refine .of_blocks (by simp) (by simp) ?_ (by simp)
  unfold startWhenReady
  split <;> rfl

theorem lose_drains (s : State) : Drains s (lose s) := by
  rcases lose_cases s with ⟨-, e⟩ | ⟨-, e⟩ <;> rw [e]
  · exact .refl s
  · have dark : Drains s (raiseFlag .panel (enterDark s)) := .of_blocks rfl rfl rfl rfl
    exact dark.trans (renderHeld_drains _)

theorem supplyBelow_drains (s : State) : Drains s (supplyBelow s) := by
  unfold supplyBelow
  split
  · exact .refl s
  · exact .withSustain s _
  · exact (Drains.withSustain s _).trans (lose_drains _)

theorem compareSupply_drains (s : State) : Drains s (compareSupply s) := by
  unfold compareSupply
  split
  · exact supplyBelow_drains s
  · split
    · exact .of_blocks (by simp) (by simp) (by simp) (by simp)
    · exact .refl s

theorem supplyMoves_drains (millivolts : Nat) (s : State) : Drains s (supplyMoves millivolts s) := by
  unfold supplyMoves
  dsimp only
  split
  · exact .withSustain s _
  · exact (Drains.withSustain s _).trans (compareSupply_drains _)

theorem settleExpires_drains (s : State) : Drains s (settleExpires s) := by
  unfold settleExpires
  split
  · exact (Drains.withSustain s _).trans (startWhenReady_drains _)
  · exact .refl s

theorem cycleStarts_drains (s : State) : Drains s (cycleStarts s) := by
  unfold cycleStarts
  split
  · exact .refl s
  · split
    · exact lose_drains s
    · exact .withSustain s _

theorem windowOpens_drains (s : State) : Drains s (windowOpens s) := by
  unfold windowOpens
  split
  · exact .refl s
  · split
    · exact .refl s
    · unfold primingWindow
      exact .of_blocks (by simp) (by simp) (by simp) (by simp)
    · unfold liveWindow
      split <;> exact .of_blocks rfl rfl rfl rfl

theorem releaseReset_drains (s : State) : Drains s (releaseReset s) := by
  unfold releaseReset
  split
  · have running (v : Touch) : Drains s ((s.withTerminalReset false).withTouch v) := .of_blocks rfl rfl rfl rfl
    exact (running _).trans (compareSupply_drains _)
  · exact .refl s

/-- After a reset every FIFO, queue and count is empty (R58, R124). -/
theorem resetState_within (s : State) (engine : Engine) (timer : Option Nat) (supplyState : SupplyState)
    (settle : Option Nat) (asserted : Bool) :
    QueuesWithin (resetState s engine timer supplyState settle asserted) :=
  ⟨Nat.zero_le _, Nat.zero_le _, Nat.zero_le _, Nat.zero_le _, Nat.zero_le _, rfl⟩

theorem powerOn_within (s : State) : QueuesWithin (powerOn s) := by
  rw [powerOn_eq]
  exact resetState_within s _ _ _ _ _

/-! ### Every step -/

theorem directEffect_within (c : Instr) (s : State) (hs : QueuesWithin s) : QueuesWithin (directEffect c s) := by
  have taken (f : State → State) (hf : QueuesWithin (f s)) := whenTaken_within f s hs hf
  cases c with
  | powerOnReset => exact powerOn_within s
  | terminalReset => exact resetState_within s { s.engine with held := none, arbiter := .localCh } none .low none true
  | terminalResetRelease => exact (releaseReset_drains s).within hs
  | supplyDroop millivolts | supplyRecover millivolts => exact (supplyMoves_drains millivolts s).within hs
  | settleTimerExpiry => exact (settleExpires_drains s).within hs
  | cycleStart => exact (cycleStarts_drains s).within hs
  | addressWindow => exact (windowOpens_drains s).within hs
  | panelOn => exact taken _ (((Drains.withSustain s _).trans (startWhenReady_drains _)).within hs)
  | eventAck | eventEnable | panelOff | recordSelect => exact taken _ { hs with }
  | order word => exact taken _ (takeWord_within word s hs)
  | input => exact readInput_within s hs
  | status => exact readStatus_within s hs
  | clearLocal => exact taken _ (clearLocal_within s hs)
  | resume => exact taken _ (resumeLocal_within s hs)
  | recordWrite | recordCommit | recordLock =>
    refine taken _ ?_
    rcases request_cases _ s with e | ⟨-, e⟩ <;> rw [e] <;> exact { hs with }
  | programmingOperationEnd =>
    show QueuesWithin (programEnds s)
    unfold programEnds
    split <;> exact { hs with }
  | scanEvent horizontal vertical => exact scan_within horizontal vertical s hs
  | characterStart low => exact startCharacter_within low s hs
  | characterArrival samples => exact arrive_within _ s hs
  | orders check | clear check | poll check => exact checkArrives_within _ check s hs
  | turnaroundGapExpiry => exact composeReply_within s hs
  | replySent => exact endReply_within s hs
  | lineGoesHigh => exact lineHigh_within s hs
  | _ => exact hs

theorem queuesWithin_keptByParts : KeptByParts QueuesWithin where
  queue _ _ hs := { hs with }
  event _ _ hs := { hs with }
  ends s hs := Drains.within (.of_blocks (by simp) (by simp) (by simp) (by simp)) hs
  own s i hs _ := runInternal_within i s hs
  direct s c hs _ := directEffect_within c s hs
  runsDown s t hs h := by
    cases h with
    | turnaround | sending => exact hs.withLineIf { hs.lineIf with }
    | _ => exact { hs with }

/-- Settles O59: each of the four invariants by the induction over the parts of a step. -/
theorem capacitiesAndRangesAreKept : Obligations.CapacitiesAndRangesAreKept := by
  intro s t e
  refine ⟨fun within => ?_, fun legal => ?_, fun legal => timingLegal_keptByParts.step s t legal e,
    fun legal => touchLegal_keptByParts.step s t legal e⟩
  · obtain ⟨queues, strikes⟩ := (withinCapacities_iff s).mp within
    have strikes' := (queue_keptByParts (·.length ≤ 64) fun _ _ move => move.within).step s t strikes e
    exact (withinCapacities_iff t).mpr ⟨queuesWithin_keptByParts.step s t queues e, strikes'⟩
  · exact (queue_keptByParts QueueLegal fun _ _ move => move.legal).step s t legal e

end Sys2Proof.Machine
end

section
/-! PROOFS. The flags of an event's end: within an event what held before it stays noted, and DRAINED, SPACE and SETTLED stay as
they were until it ends. -/

namespace Sys2Proof.Machine

/-! ### Within an event -/

/-- What held before an event, without what the event has come to. -/
def Before.conditions (b : Before) : Before := { b with opening := .shut }

/-- From one state to the other no event begins or ends: what held before the one in progress stays noted, and no flag moves that
is raised by comparison (R60, R74, R132). -/
structure WithinOneEvent (s t : State) : Prop where
  noted : t.event.map Before.conditions = s.event.map Before.conditions
  flags : ∀ f ∈ endFlags, flagSet f t = flagSet f s

namespace WithinOneEvent

variable {s t u : State}

theorem trans (h : WithinOneEvent s t) (k : WithinOneEvent t u) : WithinOneEvent s u :=
  ⟨k.noted.trans h.noted, fun f hf => (k.flags f hf).trans (h.flags f hf)⟩

/-- Most operations leave the flags and the note of the event alone. -/
theorem of_silent (flags : t.port.flags = s.port.flags) (event : t.event = s.event) : WithinOneEvent s t :=
  ⟨by rw [event], fun f _ => by rw [flagSet, flags, flagSet]⟩

theorem of_blocks (port : t.port = s.port) (event : t.event = s.event) : WithinOneEvent s t :=
  of_silent (by rw [port]) event

theorem refl (s : State) : WithinOneEvent s s := of_silent rfl rfl

/-- A flag that is raised at once is none of those. -/
theorem raiseWhen (b : Bool) (f : EventFlag) (s : State) (other : f ∉ endFlags) :
    WithinOneEvent s (Machine.raiseWhen b f s) := by
  refine ⟨by rw [raiseWhen_event], fun g hg => ?_⟩
  have differs : g ≠ f := fun same => other (same ▸ hg)
  simp [flagSet_raiseWhen, differs]

theorem raiseFlag (f : EventFlag) (s : State) (other : f ∉ endFlags) : WithinOneEvent s (Machine.raiseFlag f s) :=
  raiseWhen true f s other

/-- What an event has come to is no part of what held before it. -/
theorem openEvent (o : Opening) (s : State) : WithinOneEvent s (Machine.openEvent o s) := by
  refine ⟨?_, fun _ _ => rfl⟩
  cases noted : s.event <;> simp [Machine.openEvent, noted, Before.conditions]

theorem freePlaces (wasFull : Bool) (s : State) : WithinOneEvent s (Machine.freePlaces wasFull s) := by
  rcases freePlaces_cases wasFull s with e | e <;> rw [e]
  · exact refl s
  · exact openEvent .freed s

end WithinOneEvent

/-! ### The part's own steps -/

theorem decodeStep_withinOneEvent (ch : Channel) (s : State) : WithinOneEvent s (decodeStep ch s) := by
  rcases decodeStep_cases ch s with ⟨-, e⟩ | ⟨cause, -, e⟩ | ⟨kind, head, args, -, e⟩ <;> rw [e]
  · exact .refl s
  · exact .trans (.of_blocks (State.withChan_port s ch _) (State.withChan_event s ch _)) (.raiseWhen _ .halt _ (by decide))
  · exact .of_blocks (by simp) (by simp)

theorem completeOrder_withinOneEvent (ch : Channel) (s : State) : WithinOneEvent s (completeOrder ch s) :=
  .of_blocks (by simp) (by simp)

theorem joinInput_withinOneEvent (r : InputRecord) (s : State) : WithinOneEvent s (joinInput r s) :=
  .trans (.of_silent (t := s.withPort { s.port with input := s.port.input ++ [r] }) rfl rfl)
    (.raiseWhen _ .input _ (by decide))

theorem takeEffect_withinOneEvent (s : State) : WithinOneEvent s (takeEffect s) := by
  cases taken : s.supervision.takeover with
  | true =>
    rw [takeEffect_of_taken s taken]
    exact .refl s
  | false =>
    rw [takeEffect_of_free s taken]
    exact .trans (by exact .of_blocks rfl rfl) (.raiseFlag .takeover _ (by decide))

theorem giveEffect_withinOneEvent (s : State) : WithinOneEvent s (giveEffect s) := by
  cases taken : s.supervision.takeover with
  | true =>
    rw [giveEffect_of_taken s taken]
    exact .trans (by exact .of_blocks rfl rfl) (.raiseFlag .takeover _ (by decide))
  | false =>
    rw [giveEffect_of_free s taken]
    exact .refl s

theorem superviseEffect_withinOneEvent (f : Supervise) (s : State) : WithinOneEvent s (superviseEffect f s) := by
  cases f with
  | take => exact takeEffect_withinOneEvent s
  | give => exact giveEffect_withinOneEvent s
  | area | lock | route | timing => exact .of_blocks rfl rfl

theorem carryUnit_withinOneEvent (ch : Channel) (s : State) : WithinOneEvent s (carryUnit ch s) := by
  unfold carryUnit
  split
  · unfold glyphUnit
    split
    · exact .trans (.of_blocks (State.withChan_port s ch _) (State.withChan_event s ch _)) (.raiseWhen _ .halt _ (by decide))
    · exact .of_blocks (by simp) (by simp)
  · unfold wipeUnit
    split
    · exact .of_blocks (by simp) (by simp)
    · have event : (fullWipe s).event = s.event := by
        unfold fullWipe
        split <;> rfl
      exact .trans (.of_blocks (fullWipe_port s) event) (completeOrder_withinOneEvent ch _)
  · unfold passUnit
    refine .trans ?_ (completeOrder_withinOneEvent ch _)
    split
    · exact joinInput_withinOneEvent _ s
    · exact .of_blocks rfl rfl
  · exact (superviseEffect_withinOneEvent _ s).trans (completeOrder_withinOneEvent ch _)
  · unfold repaintUnit
    refine .trans ?_ (completeOrder_withinOneEvent ch _)
    split
    · exact .of_blocks (by simp) (by simp)
    · exact .refl s
  · exact .refl s

theorem grantTo_withinOneEvent (ch : Channel) (s : State) : WithinOneEvent s (grantTo ch s) := by
  have named : WithinOneEvent s (s.withEngine { s.engine with arbiter := ch }) := .of_blocks rfl rfl
  rcases grantTo_cases ch s with ⟨-, e⟩ | ⟨-, -, e⟩ | ⟨-, p, c, -, e⟩ <;> rw [e]
  · exact named.trans (carryUnit_withinOneEvent ch _)
  · exact named
  · rcases placeSpan_cases { channel := ch, span := p } _ with ⟨-, e⟩ | ⟨-, e⟩ <;> rw [e] <;>
      exact .of_blocks (by simp) (by simp)

theorem grantStep_withinOneEvent (s : State) : WithinOneEvent s (grantStep s) := by
  unfold grantStep
  split
  · exact .refl s
  · exact grantTo_withinOneEvent _ s

theorem runInternal_withinOneEvent (i : Internal) (s : State) : WithinOneEvent s (runInternal i s) := by
  cases i with
  | decode ch => exact decodeStep_withinOneEvent ch s
  | droppedRow ch | render | restore => exact .of_blocks (by simp [runInternal]) (by simp [runInternal])
  | grant => exact grantStep_withinOneEvent s
  | grantLine => exact grantTo_withinOneEvent .lineCh s

/-! ### The supply and the sustain -/

theorem startWhenReady_withinOneEvent (s : State) : WithinOneEvent s (startWhenReady s) := by
  by_cases ready : readyToStart s.sustain
  · rw [startWhenReady_of_ready s ready, startSustain]
    exact .trans (by exact .of_blocks rfl rfl) (.raiseFlag .panel _ (by decide))
  · rw [startWhenReady_of_not_ready s ready]
    exact .refl s

theorem lose_withinOneEvent (s : State) : WithinOneEvent s (lose s) := by
  by_cases dark : s.sustain.panelState = .dark
  · rw [lose_of_dark s dark]
    exact .refl s
  · have darkens : WithinOneEvent s (darkened s) := by
      unfold darkened
      exact .trans (by exact .of_blocks rfl rfl) (.raiseFlag .panel _ (by decide))
    rw [lose_of_running s dark]
    exact darkens.trans (.of_blocks (by simp) (by simp))

theorem supplyBelow_withinOneEvent (s : State) : WithinOneEvent s (supplyBelow s) := by
  unfold supplyBelow
  split
  · exact .refl s
  · exact .of_blocks rfl rfl
  · exact .trans (by exact .of_blocks rfl rfl) (lose_withinOneEvent _)

theorem compareSupply_withinOneEvent (s : State) : WithinOneEvent s (compareSupply s) := by
  unfold compareSupply
  split
  · exact supplyBelow_withinOneEvent s
  · split
    · exact .of_blocks (by simp) (by simp)
    · exact .refl s

theorem supplyMoves_withinOneEvent (millivolts : Nat) (s : State) : WithinOneEvent s (supplyMoves millivolts s) := by
  unfold supplyMoves
  dsimp only
  split
  · exact .of_blocks rfl rfl
  · exact .trans (by exact .of_blocks rfl rfl) (compareSupply_withinOneEvent _)

theorem settleExpires_withinOneEvent (s : State) : WithinOneEvent s (settleExpires s) := by
  unfold settleExpires
  split
  · exact .trans (by exact .of_blocks rfl rfl) (startWhenReady_withinOneEvent _)
  · exact .refl s

theorem cycleStarts_withinOneEvent (s : State) : WithinOneEvent s (cycleStarts s) := by
  unfold cycleStarts
  split
  · exact .refl s
  · split
    · exact lose_withinOneEvent s
    · exact .of_blocks rfl rfl

theorem windowOpens_withinOneEvent (s : State) : WithinOneEvent s (windowOpens s) := by
  unfold windowOpens
  split
  · exact .refl s
  · split
    · exact .refl s
    · have raised : WithinOneEvent s (primed s) := .trans (by exact .of_blocks rfl rfl) (.raiseFlag .panel _ (by decide))
      exact raised.trans (.of_blocks (by simp [primingWindow_eq]) (by simp [primingWindow_eq]))
    · unfold liveWindow
      split <;> exact .of_blocks rfl rfl

theorem releaseReset_withinOneEvent (s : State) : WithinOneEvent s (releaseReset s) := by
  unfold releaseReset
  split
  · exact .trans (by exact .of_blocks rfl rfl) (compareSupply_withinOneEvent _)
  · exact .refl s

/-! ### The port and the touch panel -/

theorem whenTaken_withinOneEvent (f : State → State) (s : State) (h : WithinOneEvent s (f s)) :
    WithinOneEvent s (whenTaken f s) := by
  unfold whenTaken
  split
  · exact .refl s
  · exact h

theorem takeWord_withinOneEvent (w : Word) (s : State) : WithinOneEvent s (takeWord w s) := by
  unfold takeWord
  split
  · exact .of_blocks rfl rfl
  · exact .raiseFlag .refused s (by decide)

theorem readInput_withinOneEvent (s : State) : WithinOneEvent s (readInput s) := by
  unfold readInput
  dsimp only
  split
  · exact .of_silent rfl rfl
  · exact .trans (by exact .of_silent rfl rfl) (.freePlaces _ _)

theorem readStatus_withinOneEvent (s : State) : WithinOneEvent s (readStatus s) := by
  unfold readStatus
  dsimp only
  split <;> exact .of_silent rfl rfl

theorem resumeLocal_withinOneEvent (s : State) : WithinOneEvent s (resumeLocal s) := by
  unfold resumeLocal
  split
  · exact .trans (by exact .of_blocks rfl rfl) (.openEvent .resumed _)
  · exact .refl s

theorem pressLocal_withinOneEvent (c : TouchCell) (s : State) : WithinOneEvent s (pressLocal c s) := by
  unfold pressLocal
  split
  · exact joinInput_withinOneEvent (.touch c) s
  · exact .of_silent rfl rfl

theorem sendPress_withinOneEvent (c : TouchCell) (s : State) : WithinOneEvent s (sendPress c s) := by
  have upstream : WithinOneEvent s (pressUpstream c s) := .of_blocks (by simp) (by simp)
  unfold sendPress
  split
  · exact .refl s
  · exact upstream
  · exact pressLocal_withinOneEvent c s
  · exact upstream.trans (pressLocal_withinOneEvent c _)

theorem scan_withinOneEvent (horizontal vertical : BitVec 16) (s : State) :
    WithinOneEvent s (scan horizontal vertical s) := by
  unfold scan
  dsimp only
  split
  · exact .of_blocks rfl rfl
  · split
    · exact .of_blocks rfl rfl
    · exact .trans (by exact .of_blocks rfl rfl) (sendPress_withinOneEvent _ _)

/-! ### The cluster line -/

theorem acceptClear_withinOneEvent (s : State) : WithinOneEvent s (acceptClear s) := by
  have emptied : WithinOneEvent s ((abandonHeld .lineCh s).withLineChan (clearedChan .accept)) :=
    .of_blocks (by simp) (by simp)
  exact ((emptied.trans (giveEffect_withinOneEvent _)).trans (by exact .of_blocks rfl rfl)).trans (.freePlaces _ _)

theorem checkCharacter_withinOneEvent (r : Reception) (b : Byte) (s : State) :
    WithinOneEvent s (checkCharacter r b s) := by
  unfold checkCharacter
  split
  · exact .of_blocks rfl rfl
  · split
    · unfold acceptOrders
      dsimp only
      split
      · exact .of_blocks rfl rfl
      · split <;> exact .of_blocks rfl rfl
    · exact acceptClear_withinOneEvent s
    · exact .of_blocks rfl rfl

theorem arrive_withinOneEvent (c : LineChar) (s : State) : WithinOneEvent s (arrive c s) := by
  unfold arrive
  split
  · refine .trans (t := s.withLineIf { s.lineIf with receiver := if c.stop then .idle else .waitHigh })
      (.of_blocks rfl rfl) ?_
    rcases assemble_cases c (s.withLineIf { s.lineIf with receiver := if c.stop then .idle else .waitHigh }) with
      ⟨l, e⟩ | ⟨r, e⟩ <;> rw [e]
    · exact .of_blocks rfl rfl
    · exact checkCharacter_withinOneEvent r c.data _
  · exact .refl s

theorem checkArrives_withinOneEvent (kind : FrameKind) (b : Byte) (s : State) :
    WithinOneEvent s (checkArrives kind b s) := by
  unfold checkArrives
  split
  · exact arrive_withinOneEvent _ s
  · exact .refl s

theorem startCharacter_withinOneEvent (low : Nat) (s : State) : WithinOneEvent s (startCharacter low s) := by
  unfold startCharacter
  split <;> exact .of_blocks rfl rfl

theorem composeReply_withinOneEvent (s : State) : WithinOneEvent s (composeReply s) := by
  unfold composeReply
  split
  · exact .trans (by exact .of_blocks rfl rfl) (.freePlaces _ _)
  · exact .refl s
  · exact .refl s

theorem endReply_withinOneEvent (s : State) : WithinOneEvent s (endReply s) := by
  unfold endReply
  split <;> exact .of_blocks rfl rfl

theorem lineHigh_withinOneEvent (s : State) : WithinOneEvent s (lineHigh s) := by
  unfold lineHigh
  split <;> exact .of_blocks rfl rfl

theorem programEnds_withinOneEvent (s : State) : WithinOneEvent s (programEnds s) := by
  unfold programEnds
  split <;> exact .of_blocks rfl rfl

/-- Only the resets end an event by themselves, and only EVENT-ACK clears a flag that is raised by comparison. -/
theorem directEffect_withinOneEvent (c : Instr) (s : State) (power : c ≠ .powerOnReset) (terminal : c ≠ .terminalReset)
    (ack : ∀ a, c ≠ .eventAck a) : WithinOneEvent s (directEffect c s) := by
  have taken (f : State → State) := whenTaken_withinOneEvent f s
  cases c with
  | powerOnReset => exact absurd rfl power
  | terminalReset => exact absurd rfl terminal
  | eventAck argument => exact absurd rfl (ack argument)
  | terminalResetRelease => exact releaseReset_withinOneEvent s
  | supplyDroop millivolts | supplyRecover millivolts => exact supplyMoves_withinOneEvent millivolts s
  | settleTimerExpiry => exact settleExpires_withinOneEvent s
  | cycleStart => exact cycleStarts_withinOneEvent s
  | addressWindow => exact windowOpens_withinOneEvent s
  | order word => exact taken _ (takeWord_withinOneEvent word s)
  | input => exact readInput_withinOneEvent s
  | status => exact readStatus_withinOneEvent s
  | clearLocal => exact taken _ (.of_blocks (by simp [clearLocal]) (by simp [clearLocal]))
  | resume => exact taken _ (resumeLocal_withinOneEvent s)
  | panelOn => exact taken _ (.trans (by exact .of_blocks rfl rfl) (startWhenReady_withinOneEvent _))
  | eventEnable | panelOff | recordSelect => exact taken _ (.of_silent rfl rfl)
  | recordWrite | recordCommit | recordLock =>
    refine taken _ ?_
    rcases request_cases _ s with e | ⟨-, e⟩ <;> rw [e] <;> exact .of_blocks rfl rfl
  | programmingOperationEnd => exact programEnds_withinOneEvent s
  | scanEvent horizontal vertical => exact scan_withinOneEvent horizontal vertical s
  | characterStart low => exact startCharacter_withinOneEvent low s
  | characterArrival samples => exact arrive_withinOneEvent _ s
  | orders check | clear check | poll check => exact checkArrives_withinOneEvent _ check s
  | turnaroundGapExpiry => exact composeReply_withinOneEvent s
  | replySent => exact endReply_withinOneEvent s
  | lineGoesHigh => exact lineHigh_withinOneEvent s
  | _ => exact .refl s

/-! ### The end of the event -/

/-- DRAINED, SPACE and SETTLED in `t` are those of `s` and those whose condition has become true (R60, R74, R132). -/
def EndFlagsRaised (s t : State) : Prop :=
  let before := s.event.getD (observe s)
  flagSet .drained t = (flagSet .drained s || (!before.idle && chanIdle t.localChan)) ∧
    flagSet .space t = (flagSet .space s || (!before.roomy && decide (32 ≤ fifoFree t .localCh))) ∧
    flagSet .settled t = (flagSet .settled s || (!before.settled && isSettled t))

/-- An event in which nothing happens raises nothing. -/
theorem endFlagsRaised_refl (s : State) (h : s.event = none) : EndFlagsRaised s s := by
  simp only [EndFlagsRaised, h, Option.getD_none, observe, Bool.not_and_self, Bool.or_false, and_true]

/-- The conditions noted at the beginning of an event are those compared at its end. -/
theorem WithinOneEvent.raised {s v : State} (h : WithinOneEvent (beginEvent s) v) (ended : (closeEvent v).event = none) :
    EndFlagsRaised s (closeEvent v) := by
  have same (f : EventFlag) (hf : f ∈ endFlags) : flagSet f v = flagSet f s := by
    rw [h.flags f hf, flagSet, beginEvent_frame s |>.2.2.2.2, flagSet]
  obtain ⟨b, noted, idle, roomy, settled⟩ : ∃ b, v.event = some b ∧ b.idle = (s.event.getD (observe s)).idle ∧
      b.roomy = (s.event.getD (observe s)).roomy ∧ b.settled = (s.event.getD (observe s)).settled := by
    have conditions := h.noted
    rw [beginEvent_eq, State.withEvent_event, Option.map_some] at conditions
    obtain ⟨b, noted, kept⟩ := Option.map_eq_some_iff.mp conditions
    have same {α} (field : Before → α) : field b.conditions = field _ := congrArg field kept
    exact ⟨b, noted, same Before.idle, same Before.roomy, same Before.settled⟩
  rcases closeEvent_cases v with ⟨-, e⟩ | ⟨-, -, e⟩ <;> rw [e] at ended ⊢
  · rw [noted] at ended
    cases ended
  · have free : fifoFree (endEvent v) .localCh = fifoFree v .localCh := by simp [fifoFree]
    have observed : isSettled (endEvent v) = isSettled v := by simp [isSettled]
    refine ⟨?_, ?_, ?_⟩
    · rw [endEvent_flags v b noted, same .drained (by decide), idle]
      simp
    · rw [endEvent_flags v b noted, same .space (by decide), roomy, free]
      simp
    · rw [endEvent_flags v b noted, same .settled (by decide), settled, observed]
      simp

/-- A command that is one of the part's own steps stays within the event in progress until it closes. -/
theorem exec_internal_withinOneEvent (c : Instr) (s : State) (h : isInternal c = true) :
    exec c s = .next s ∨ ∃ v, exec c s = .next (closeEvent v) ∧ WithinOneEvent (beginEvent s) v := by
  have made (due : Bool) (f : State → State) (within : ∀ u, WithinOneEvent u (f u)) :
      stepWhen due f s = s ∨ ∃ v, stepWhen due f s = closeEvent v ∧ WithinOneEvent (beginEvent s) v := by
    cases due with
    | false => exact .inl rfl
    | true => exact .inr ⟨_, rfl, within _⟩
  have answers {t : State} (e : exec c s = .next t)
      (step : t = s ∨ ∃ v, t = closeEvent v ∧ WithinOneEvent (beginEvent s) v) :
      exec c s = .next s ∨ ∃ v, exec c s = .next (closeEvent v) ∧ WithinOneEvent (beginEvent s) v := by
    rcases step with rfl | ⟨v, rfl, within⟩
    · exact .inl e
    · exact .inr ⟨v, e, within⟩
  rcases exec_of_internal c s h with ⟨i, e⟩ | ⟨kind, ch, e⟩ | ⟨kind, ch, e⟩
  · exact answers e (made _ _ (runInternal_withinOneEvent i))
  · exact answers e (made _ _ (decodeStep_withinOneEvent ch))
  · refine answers e (made _ _ fun u => ?_)
    have start : WithinOneEvent u (startOrder kind ch u) := by
      rcases startOrder_cases kind ch u with e | ⟨-, e⟩ <;> rw [e]
      · exact .refl u
      · exact runInternal_withinOneEvent _ u
    refine start.trans ?_
    rcases grantOrder_cases kind ch (startOrder kind ch u) with e | ⟨-, e⟩ <;> rw [e]
    · exact .refl _
    · exact runInternal_withinOneEvent _ _

/-- A command from outside that comes at rest begins its event and closes it behind its direct effect. -/
theorem exec_outside_of_atRest (c : Instr) (s : State) (outside : isInternal c = false) (rest : AtRest s) :
    exec c s = .next (closeEvent (directEffect c (beginEvent s))) := by
  have event : atEvent (directEffect c) s = closeEvent (directEffect c (beginEvent s)) := by
    rw [atEvent_of_atRest _ s rest, beginEvent_of_atRest s rest]
  rcases exec_of_outside c s outside with e | ⟨-, -, -, e⟩
  · rw [e, event]
  · rw [e, atPress_of_atRest _ s rest, event]

/-- Settles O5: the command stays within one event, at whose close the three conditions are compared. -/
theorem eventEndRaisesItsFlags : Obligations.EventEndRaisesItsFlags := by
  intro c s t begun power terminal ack answer ended
  cases own : isInternal c with
  | true =>
    rcases exec_internal_withinOneEvent c s own with e | ⟨v, e, within⟩ <;> rw [e] at answer <;> cases answer
    · exact endFlagsRaised_refl s ended
    · exact within.raised ended
  | false =>
    have rest : AtRest s := begun.resolve_left (by simp [own])
    rw [exec_outside_of_atRest c s own rest] at answer
    cases answer
    exact (directEffect_withinOneEvent c _ power terminal ack).raised ended

end Sys2Proof.Machine
end

section
/-! PROOFS. The decoder: the context orders NOP, MODE and CLIP, and the halt of a channel that reaches a malformed order. -/

namespace Sys2Proof.Machine

/-! ### Context orders -/

/-- MODE takes its mode from bits 1..0 of its head word (R49, R140). -/
theorem modes_getElem?_modeOf (w : Word) :
    [Mode.write, .erase, .inverse, .rewrite][w.toNat % 4]? = some (modeOf w) := by
  have bound : w.toNat % 4 < 4 := Nat.mod_lt _ (by decide)
  unfold modeOf
  generalize w.toNat % 4 = n at bound
  match n with
  | 0 | 1 | 2 | 3 => rfl

/-- MODE takes its size from bit 2 of its head word (R49, R140). -/
theorem sizeFieldOf_eq_two (w : Word) : sizeFieldOf w = .two ↔ w.getLsbD 2 = true := by
  unfold sizeFieldOf
  split <;> simp_all

/-- Settles O23: each is carried out by the decoder at its start, and its words leave the FIFO. -/
theorem nopModeAndClipAreCarriedOut : Obligations.NopModeAndClipAreCarriedOut := by
  intro s ch head a b c d rest
  refine ⟨fun reaches => ?_, fun reaches => ?_, fun reaches => ?_⟩
  · obtain ⟨order, changes, flags⟩ := startedState_closed ch .nop head [] s
    have words : (s.chan ch).fifo.drop 1 = rest := reaches.drop_fifo
    refine ⟨_, congrArg Host.Outcome.next reaches.contextCommand, order.trans ?_, changes, flags⟩
    simp only [decoded, reachNop, popOrder, words]
  · obtain ⟨order, changes, flags⟩ := startedState_closed ch .mode head [] s
    have words : (s.chan ch).fifo.drop 1 = rest := reaches.drop_fifo
    refine ⟨_, modeOf head, sizeFieldOf head, congrArg Host.Outcome.next reaches.contextCommand,
      modes_getElem?_modeOf head, sizeFieldOf_eq_two head, order.trans ?_, changes, flags⟩
    simp only [decoded, reachMode, popOrder, words]
  · obtain ⟨order, changes, flags⟩ := startedState_closed ch .clip head [a, b, c, d] s
    have words : (s.chan ch).fifo.drop 5 = rest := reaches.drop_fifo
    obtain ⟨xLo, yLo, xHi, yHi⟩ := rectOf_bounds (coordOf a) (coordOf b) (coordOf c) (coordOf d)
    refine ⟨_, _, congrArg Host.Outcome.next reaches.contextCommand, xLo, yLo, xHi, yHi, order.trans ?_, changes, flags⟩
    simp only [decoded, reachClip, popOrder, words]
    rfl

/-! ### Malformed orders -/

/-- The halt of a channel empties it, keeps its context, and raises HALT for the local channel (R54). -/
theorem haltChannel_closed (ch : Channel) (cause : HaltCause) (s : State) :
    let t := closeEvent (haltChannel ch cause (beginEvent s))
    t.chan ch = { s.chan ch with fifo := [], order := none, response := .halted, cause := cause } ∧
      OnlyChanges [chanPart ch, .flags] s t ∧ FlagsAfter (if ch = .localCh then [.halt] else []) s t := by
  have port : (beginEvent s).port.flags = s.port.flags := by simp
  refine ⟨?_, ?_, ?_⟩
  · rw [closeEvent_chan, haltChannel, raiseWhen_chan, State.withChan_chan, beginEvent_chan]
    rfl
  · cases ch with
    | lineCh =>
      exact ((onlyChanges_beginEvent s).trans (onlyChanges_withChan .lineCh _ _)).trans (onlyChanges_closeEvent _)
    | localCh =>
      exact (((onlyChanges_beginEvent s).trans (haltChannel_local_onlyChanges cause _)).trans
        (onlyChanges_closeEvent _)).mono (by simp [chanPart])
  · cases ch with
    | lineCh =>
      have silent : FlagsAfter [] s (haltChannel .lineCh cause (beginEvent s)) := FlagsAfter.of_flags port
      exact silent.closed
    | localCh => exact ((haltChannel_local_flags cause _).of_before port).closed

/-- The command at whose event the decoder meets a malformed order halts the channel, and has nothing to grant (R53, R54). -/
theorem exec_of_malformed (ch : Channel) (s : State) (kind : OrderKind) (cause : HaltCause)
    (meets : reached ch (s.chan ch) = .malformed cause) (front : frontKind (s.chan ch) = some kind) :
    exec (orderCommand ch kind) s = .next (closeEvent (haltChannel ch cause (beginEvent s))) := by
  have reaches : orderReached kind ch s = true := by simp [orderReached, decodeDue, meets, front]
  have reaches' : orderReached kind ch (beginEvent s) = true := by
    rw [← reaches, orderReached, orderReached, decodeDue, decodeDue, beginEvent_chan]
  have halts : decodeStep ch (beginEvent s) = haltChannel ch cause (beginEvent s) := by
    simp only [decodeStep, beginEvent_chan, meets]
  have grants : orderGranted kind ch (haltChannel ch cause (beginEvent s)) = false := by
    simp [orderGranted, haltChannel, haltedChan, State.withChan_chan]
  rcases exec_orderCommand_cases ch kind s with e | e <;> rw [e]
  · simp only [contextCommand, reaches, stepWhen_true, withinEvent, halts]
  · simp only [grantedCommand, reaches, Bool.true_or, stepWhen_true, withinEvent, startOrder, reaches', if_true, halts,
      grantOrder, grants, Bool.false_eq_true, if_false]

/-- SUPERVISE is order code 14 (R140). -/
theorem headKind_of_supervise (head : Word) (code : head.toNat / 4096 = 14) : headKind head = superviseKind head := by
  simp only [headKind, headCode, code]

/-- Functions 6..15 of SUPERVISE are unassigned (R102). -/
theorem superviseKind_of_unassigned (head : Word) (unassigned : 6 ≤ head.toNat % 16) : superviseKind head = none := by
  obtain ⟨n, number⟩ := Nat.exists_eq_add_of_le' unassigned
  simp only [superviseKind, number]

/-- Settles O25: what the decoder meets is malformed with its cause, and the order's command is the halt. -/
theorem malformedOrderHalts : Obligations.MalformedOrderHalts := by
  intro s ch head rest halted accept idle fifo
  have meets : reached ch (s.chan ch) = reachedIn ch (head :: rest) := by simp [reached, accept, idle, fifo]
  have front : frontKind (s.chan ch) = some ((headKind head).getD .take) := by simp [frontKind, fifo]
  refine ⟨fun kind named coordinates line present bad => ?_, fun code mine => ?_, fun code unassigned line => ?_⟩
  · have privileged : (isSupervise head && ch == .localCh) = false := by
      cases sup : isSupervise head with
      | false => rfl
      | true => rw [line sup]; rfl
    have fails : (rest.take (argumentCount kind)).any badCoordinate = true := by
      obtain ⟨w, argument, high⟩ := bad
      exact List.any_eq_true.mpr ⟨w, argument, decide_eq_true high⟩
    have malformed : reached ch (s.chan ch) = .malformed .argument := by
      rw [meets]
      simp [reachedIn, privileged, named, Nat.not_lt.mpr present, coordinates, fails]
    rw [named] at front
    exact ⟨_, exec_of_malformed ch s kind _ malformed front, haltChannel_closed ch .argument s⟩
  · have malformed : reached ch (s.chan ch) = .malformed .privilege := by
      rw [meets]
      simp [reachedIn, isSupervise, headCode, code, mine]
    exact ⟨_, exec_of_malformed ch s _ _ malformed front, haltChannel_closed ch .privilege s⟩
  · have unnamed : headKind head = none := by
      rw [headKind_of_supervise head code, superviseKind_of_unassigned head unassigned]
    have malformed : reached ch (s.chan ch) = .malformed .code := by
      rw [meets]
      simp [reachedIn, line, unnamed]
    rw [unnamed] at front
    exact ⟨_, exec_of_malformed ch s .take _ malformed front, haltChannel_closed ch .code s⟩

end Sys2Proof.Machine
end

section
/-! PROOFS. The writes ORDER and CLEAR-LOCAL: a word taken, refused or lost, and the local channel emptied. -/

namespace Sys2Proof.Machine

/-! ### ORDER -/

/-- A word is taken in ACCEPT with room (R48, R55). -/
theorem takeWord_of_room (w : Word) (s : State) (accept : s.localChan.response = .accept)
    (room : s.localChan.fifo.length < 64) :
    takeWord w s = s.withLocalChan { s.localChan with fifo := s.localChan.fifo ++ [w] } :=
  if_pos ⟨accept, Nat.le_sub_of_add_le' room⟩

/-- A word is refused outside ACCEPT and while the FIFO is full (R55). -/
theorem takeWord_of_refused (w : Word) (s : State)
    (refused : s.localChan.response ≠ .accept ∨ 64 ≤ s.localChan.fifo.length) :
    takeWord w s = raiseFlag .refused s := by
  refine if_neg ?_
  rintro ⟨accept, room⟩
  rcases refused with other | full
  · exact other accept
  · exact absurd (Nat.lt_of_sub_pos room) (Nat.not_lt.mpr full)

/-- A write while the terminal reset input is asserted is lost (R129). -/
theorem whenTaken_of_asserted (f : State → State) (s : State) (asserted : s.terminalReset = true) :
    whenTaken f s = s :=
  if_pos asserted

/-- At rest a write that is taken is its effect, and the steps and comparisons behind it. -/
theorem atEvent_of_released (f : State → State) (s : State) (rest : AtRest s) (released : s.terminalReset = false) :
    atEvent (whenTaken f) s = closeEvent (f (s.withEvent (some (observe s)))) := by
  rw [atEvent_of_atRest _ s rest, whenTaken_of_released f _ (by exact released)]

/-- Settles O26: whether the word is taken is decided by the response state and the free count at its write. -/
theorem orderWordIsTakenOrRefused : Obligations.OrderWordIsTakenOrRefused := by
  intro s w rest
  let begun := s.withEvent (some (observe s))
  refine ⟨fun asserted => ?_, fun released accept room => ?_, fun released refused => ?_⟩
  · have lost : atEvent (whenTaken (takeWord w)) s = s := by
      rw [atEvent_of_atRest _ s rest, whenTaken_of_asserted _ _ (by exact asserted), ← beginEvent_of_atRest s rest,
        closeEvent_beginEvent s rest]
    exact congrArg Host.Outcome.next lost
  · have taken : atEvent (whenTaken (takeWord w)) s =
        closeEvent (begun.withLocalChan { s.localChan with fifo := s.localChan.fifo ++ [w] }) := by
      rw [atEvent_of_released _ s rest released, takeWord_of_room w begun accept room]
      rfl
    refine ⟨_, congrArg Host.Outcome.next taken, ?_, ?_, ?_⟩
    · simp
    · exact ((onlyChanges_withEvent s _).trans (onlyChanges_withChan .localCh _ begun)).trans (onlyChanges_closeEvent _)
    · exact (FlagsAfter.of_flags rfl).closed
  · have quiet : closeEvent (raiseFlag .refused begun) = (raiseFlag .refused begun).withEvent none :=
      closeEvent_of_observe s _ rfl rest.2 rfl
    have raised : atEvent (whenTaken (takeWord w)) s = (raiseFlag .refused begun).withEvent none := by
      rw [atEvent_of_released _ s rest released, takeWord_of_refused w begun refused, quiet]
    refine ⟨_, congrArg Host.Outcome.next raised, ?_, FlagsAfter.of_raised rfl, rfl⟩
    intro p other
    cases p <;> simp [SamePart, begun] at other ⊢

/-! ### CLEAR-LOCAL -/

/-- CLEAR-LOCAL empties the local channel, withdraws what it holds and ends the wait for RESUME (R56). -/
theorem clearLocal_eq (s : State) :
    clearLocal s =
      ((s.withEngine { s.engine with held := s.engine.held.filter fun h => h.channel != .localCh }).withLocalChan
        { Chan.initial with response := if s.supervision.takeover then .hold else .accept }).withSupervision
          { s.supervision with resumeAwaited := false } := by
  have withdrawn : abandonHeld .localCh s =
      s.withEngine { s.engine with held := s.engine.held.filter fun h => h.channel != .localCh } := by
    rw [← abandonHeld_engine]
    unfold abandonHeld
    split
    · exact (State.withEngine_self s).symm
    · split
      · rfl
      · exact (State.withEngine_self s).symm
  rw [clearLocal, withdrawn]
  rfl

theorem clearLocal_onlyChanges (s : State) : OnlyChanges [.localChan, .held, .takeover] s (clearLocal s) := by
  intro p other
  rw [clearLocal_eq]
  cases p <;> simp [SamePart] at other ⊢

/-- Settles O27: the write empties the channel at its event, whose end raises DRAINED where the channel was not idle. -/
theorem clearLocalEmptiesTheChannel : Obligations.ClearLocalEmptiesTheChannel := by
  intro s a rest released
  let t := closeEvent (clearLocal (s.withEvent (some (observe s))))
  have clears : exec (.clearLocal a) s = .next t :=
    congrArg Host.Outcome.next (atEvent_of_released clearLocal s rest released)
  have chan : t.localChan = { Chan.initial with response := if s.supervision.takeover then .hold else .accept } :=
    (closeEvent_chan _ .localCh).trans (by rw [clearLocal_eq]; rfl)
  refine ⟨t, clears, by rw [chan]; rfl, by rw [chan]; rfl, by rw [chan]; rfl, by rw [chan]; rfl, by rw [chan],
    by simp [t, clearLocal_eq], by simp [t, clearLocal_eq], ?_, ?_, fun ended => ?_⟩
  · exact ((onlyChanges_withEvent s _).trans (clearLocal_onlyChanges _)).trans (onlyChanges_closeEvent _)
  · exact (FlagsAfter.of_flags (by simp [clearLocal_eq])).closed
  · obtain ⟨drained, -⟩ := eventEndRaisesItsFlags (.clearLocal a) s t (.inr rest) nofun nofun nofun clears ended
    have idle : chanIdle t.localChan = true := by rw [chan]; rfl
    rw [drained, idle, Bool.and_true, rest.1]
    rfl

end Sys2Proof.Machine
end

section
/-! PROOFS. PASS: the room that its target queue has to have, and its record in that queue. -/

namespace Sys2Proof.Machine

/-- A PASS is one unit, presented while its target queue has room (R59). -/
theorem presents_of_pass (s : State) (ch : Channel) (payload : BitVec 12) (order : (s.chan ch).order = some (.pass payload)) :
    presents s ch = ((s.chan ch).response == .accept && passRoom s ch) := by
  have unit : unitReady s ch = passRoom s ch := by simp only [unitReady, order]
  have noSpan : spanReady s ch = none := by simp only [spanReady, formSpan, order]
  rw [presents, unit, noSpan, Option.isSome_none, Bool.or_false]

/-- The queue that a granted PASS joins has room (R59). -/
theorem passRoom_of_granted (s : State) (ch : Channel) (payload : BitVec 12) (granted : Granted ch s (.pass payload)) :
    passRoom s ch = true := by
  have presented := presents_of_grantee s ch granted.1
  rw [presents_of_pass s ch payload granted.2] at presented
  exact ((Bool.and_eq_true _ _).mp presented).2

theorem exec_pass_granted (ch : Channel) (s : State) (payload : BitVec 12) (granted : Granted ch s (.pass payload)) :
    exec (.pass ch) s = .next (closeEvent (passUnit ch payload (grantBegun ch s))) := by
  have order : ((beginEvent s).chan ch).order = some (.pass payload) := by rw [beginEvent_chan, granted.2]
  have ready : unitReady (beginEvent s) ch = true := by
    rw [unitReady_beginEvent]
    simpa only [unitReady, granted.2] using passRoom_of_granted s ch payload granted
  have grant : grantTo ch (beginEvent s) = passUnit ch payload (grantBegun ch s) := by
    rw [grantTo_of_unit ch _ ready]
    simp only [carryUnit, State.withEngine_chan, order]
    rfl
  rw [← grant]
  exact exec_orderCommand ch s (.pass payload) granted

@[simp] theorem joinInput_port (r : InputRecord) (s : State) :
    (joinInput r s).port.input = s.port.input ++ [r] ∧ (joinInput r s).port.overflow = s.port.overflow ∧
      (joinInput r s).port.enables = s.port.enables ∧ (joinInput r s).port.select = s.port.select ∧
      (joinInput r s).port.data = s.port.data := by
  simp [joinInput]

/-- A PASS that is carried out completes with the rest of its channel as it was. -/
theorem passUnit_chan (ch : Channel) (payload : BitVec 12) (s : State) :
    (closeEvent (passUnit ch payload (grantBegun ch s))).chan ch = { s.chan ch with order := none } := by
  rw [closeEvent_chan, ← grantBegun_chan ch ch s]
  cases ch with
  | lineCh => exact (completeOrder_chan .lineCh _).trans (by simp [State.chan])
  | localCh => exact completeOrder_chan .localCh _

/-- A record joins the local input queue as its newest, and raises INPUT where it was empty (R128, R132). -/
theorem joinInput_joined (r : InputRecord) (s : State) :
    OnlyChanges [.input, .flags] s (joinInput r s) ∧
      FlagsAfter (if s.port.input = [] then [.input] else []) s (joinInput r s) := by
  refine ⟨fun p other => ?_, ?_⟩
  · cases p <;> simp [SamePart] at other ⊢
  · cases queue : s.port.input with
    | nil =>
      rw [joinInput, queue]
      exact FlagsAfter.of_raised rfl
    | cons oldest later =>
      rw [joinInput, queue]
      exact FlagsAfter.of_flags rfl

/-- Settles O29: a PASS is presented only with room in its target queue, and its grant is the joining of its record. -/
theorem passJoinsTheOtherQueue : Obligations.PassJoinsTheOtherQueue := by
  intro s ch payload
  refine ⟨?_, ?_, fun order => ?_⟩
  · rintro rfl granted
    have room := passRoom_of_granted s .lineCh payload granted
    obtain ⟨joins, flags⟩ := joinInput_joined (.pass payload) (grantBegun .lineCh s)
    refine ⟨of_decide_eq_true room, _, exec_pass_granted .lineCh s payload granted, ?_, ?_, ?_, ?_, ?_⟩
    · simp [passUnit]
    · simp [passUnit]
    · exact passUnit_chan .lineCh payload s
    · exact ((((onlyChanges_grantBegun .lineCh s).trans joins).trans (onlyChanges_withChan .lineCh _ _)).trans
        (onlyChanges_closeEvent _)).mono (by simp [chanPart])
    · have same : (grantBegun .lineCh s).port = s.port := by simp
      rw [same] at flags
      have passed : FlagsAfter _ s (passUnit .lineCh payload (grantBegun .lineCh s)) := flags.of_before (by rw [same])
      exact passed.closed
  · rintro rfl granted
    have room := passRoom_of_granted s .localCh payload granted
    have joins : OnlyChanges [.upstream] (grantBegun .localCh s) (joinUpstream (.pass payload) (grantBegun .localCh s)) := by
      intro p other
      cases p <;> simp [SamePart, joinUpstream] at other ⊢
    refine ⟨of_decide_eq_true room, _, exec_pass_granted .localCh s payload granted, ?_, ?_, ?_, ?_, ?_⟩
    · simp [passUnit, joinUpstream, grantBegun, beginEvent_eq]
    · simp [passUnit, joinUpstream, grantBegun, beginEvent_eq]
    · exact passUnit_chan .localCh payload s
    · exact ((((onlyChanges_grantBegun .localCh s).trans joins).trans (onlyChanges_withChan .localCh _ _)).trans
        (onlyChanges_closeEvent _)).mono (by simp [chanPart])
    · exact (FlagsAfter.of_flags (by simp [passUnit])).closed
  · rw [presents_of_pass s ch payload order]
    refine ⟨?_, ?_⟩
    all_goals
      rintro rfl full
      rw [passRoom, decide_eq_false (Nat.not_lt.mpr full), Bool.and_false]

end Sys2Proof.Machine
end

section
/-! PROOFS. The scan event: where a press goes, what an event that leaves no step due ends in, and the press that comes together
with freed places. -/

namespace Sys2Proof.Machine

/-! ### Where a press goes -/

/-- The touch route sends presses to the upstream queue (R117). -/
def RoutesUpstream (s : State) : Prop := s.supervision.route = .toLine ∨ s.supervision.route = .toBoth

/-- The touch route sends presses to the local input queue (R117). -/
def RoutesLocal (s : State) : Prop := s.supervision.route = .toLocal ∨ s.supervision.route = .toBoth

theorem pressUpstream_of_room (c : TouchCell) (s : State) (room : s.lineIf.upstream.length < 16) :
    pressUpstream c s = s.withLineIf { s.lineIf with upstream := s.lineIf.upstream ++ [.touch c] } :=
  if_pos room

theorem pressUpstream_of_full (c : TouchCell) (s : State) (full : 16 ≤ s.lineIf.upstream.length) :
    pressUpstream c s = s.withLineIf { s.lineIf with overflow := true } :=
  if_neg (Nat.not_lt.mpr full)

/-- A press joins the local input queue as a PASS does (R59, R117). -/
theorem pressLocal_of_room (c : TouchCell) (s : State) (room : s.port.input.length < 16) :
    pressLocal c s = joinInput (.touch c) s :=
  if_pos room

theorem pressLocal_of_full (c : TouchCell) (s : State) (full : 16 ≤ s.port.input.length) :
    pressLocal c s = s.withPort { s.port with overflow := true } :=
  if_neg (Nat.not_lt.mpr full)

theorem pressUpstream_eq (c : TouchCell) (s : State) : pressUpstream c s = s.withLineIf (pressUpstream c s).lineIf := by
  unfold pressUpstream
  split <;> rfl

theorem pressLocal_eq (c : TouchCell) (s : State) : pressLocal c s = s.withPort (pressLocal c s).port := by
  unfold pressLocal
  split
  · cases s.port.input <;> rfl
  · rfl

/-- A press reads of the state the line interface alone where it meets the upstream queue. -/
theorem pressUpstream_lineIf {c : TouchCell} {s t : State} (same : t.lineIf = s.lineIf) :
    (pressUpstream c t).lineIf = (pressUpstream c s).lineIf := by
  rcases Nat.lt_or_ge s.lineIf.upstream.length 16 with room | full
  · rw [pressUpstream_of_room c s room, pressUpstream_of_room c t (same ▸ room), same]
    rfl
  · rw [pressUpstream_of_full c s full, pressUpstream_of_full c t (same ▸ full), same]
    rfl

/-- A press reads of the state the port alone where it meets the local input queue. -/
theorem pressLocal_port {c : TouchCell} {s t : State} (same : t.port = s.port) :
    (pressLocal c t).port = (pressLocal c s).port := by
  rcases Nat.lt_or_ge s.port.input.length 16 with room | full
  · rw [pressLocal_of_room c s room, pressLocal_of_room c t (same ▸ room), joinInput, joinInput, same]
    cases s.port.input <;> rfl
  · rw [pressLocal_of_full c s full, pressLocal_of_full c t (same ▸ full), same]
    rfl

/-- A press meets the queues that the touch route names, and no other (R117). -/
theorem sendPress_eq (c : TouchCell) (s : State) :
    ∃ l p, sendPress c s = (s.withLineIf l).withPort p ∧
      (RoutesUpstream s → l = (pressUpstream c s).lineIf) ∧ (¬RoutesUpstream s → l = s.lineIf) ∧
      (RoutesLocal s → p = (pressLocal c s).port) ∧ (¬RoutesLocal s → p = s.port) := by
  cases route : s.supervision.route with
  | noMaster =>
    exact ⟨s.lineIf, s.port, by simp only [sendPress, route]; rfl, by simp [RoutesUpstream, route], fun _ => rfl,
      by simp [RoutesLocal, route], fun _ => rfl⟩
  | toLine =>
    refine ⟨(pressUpstream c s).lineIf, s.port, ?_, fun _ => rfl, by simp [RoutesUpstream, route],
      by simp [RoutesLocal, route], fun _ => rfl⟩
    simp only [sendPress, route]
    exact pressUpstream_eq c s
  | toLocal =>
    refine ⟨s.lineIf, (pressLocal c s).port, ?_, by simp [RoutesUpstream, route], fun _ => rfl, fun _ => rfl,
      by simp [RoutesLocal, route]⟩
    simp only [sendPress, route]
    exact pressLocal_eq c s
  | toBoth =>
    refine ⟨(pressUpstream c s).lineIf, (pressLocal c s).port, ?_, fun _ => rfl, by simp [RoutesUpstream, route],
      fun _ => rfl, by simp [RoutesLocal, route]⟩
    simp only [sendPress, route]
    rw [pressLocal_eq, pressLocal_port (pressUpstream_frame c s).2.2.2.2.2.2.2.2.2.2.1, pressUpstream_eq]
    rfl

theorem pressUpstream_onlyChanges (c : TouchCell) (s : State) : OnlyChanges [.upstream] s (pressUpstream c s) := by
  intro p other
  rcases Nat.lt_or_ge s.lineIf.upstream.length 16 with room | full
  · rw [pressUpstream_of_room c s room]
    cases p <;> simp [SamePart] at other ⊢
  · rw [pressUpstream_of_full c s full]
    cases p <;> simp [SamePart] at other ⊢

theorem pressLocal_onlyChanges (c : TouchCell) (s : State) : OnlyChanges [.input, .flags] s (pressLocal c s) := by
  rcases Nat.lt_or_ge s.port.input.length 16 with room | full
  · rw [pressLocal_of_room c s room]
    exact (joinInput_joined (.touch c) s).1
  · rw [pressLocal_of_full c s full]
    intro p other
    cases p <;> simp [SamePart] at other ⊢

theorem sendPress_onlyChanges (c : TouchCell) (s : State) :
    OnlyChanges [.upstream, .input, .flags] s (sendPress c s) := by
  unfold sendPress
  split
  · exact fun p _ => SamePart.refl s p
  · exact (pressUpstream_onlyChanges c s).mono (by simp)
  · exact (pressLocal_onlyChanges c s).mono (by simp)
  · exact (pressUpstream_onlyChanges c s).trans (pressLocal_onlyChanges c _)

/-- A queue that a press met is no shorter than before. -/
theorem pressUpstream_longer (c : TouchCell) (s : State) :
    s.lineIf.upstream.length ≤ (pressUpstream c s).lineIf.upstream.length := by
  rcases Nat.lt_or_ge s.lineIf.upstream.length 16 with room | full
  · simp [pressUpstream_of_room c s room]
  · simp [pressUpstream_of_full c s full]

theorem pressLocal_longer (c : TouchCell) (s : State) : s.port.input.length ≤ (pressLocal c s).port.input.length := by
  rcases Nat.lt_or_ge s.port.input.length 16 with room | full
  · simp [pressLocal_of_room c s room]
  · simp [pressLocal_of_full c s full]

/-! ### The event at its end -/

/-- Longer queues let no PASS be presented that was not (R59). -/
theorem dueStep_of_longerQueues {s : State} {l : LineInterface} {p : Port}
    (upstream : s.lineIf.upstream.length ≤ l.upstream.length) (input : s.port.input.length ≤ p.input.length)
    (quiet : dueStep s = none) : dueStep ((s.withLineIf l).withPort p) = none := by
  let t := (s.withLineIf l).withPort p
  have room (ch : Channel) : passRoom t ch = true → passRoom s ch = true := by
    cases ch with
    | lineCh => exact fun free => decide_eq_true (Nat.lt_of_le_of_lt input (of_decide_eq_true free))
    | localCh => exact fun free => decide_eq_true (Nat.lt_of_le_of_lt upstream (of_decide_eq_true free))
  have chan (ch : Channel) : t.chan ch = s.chan ch := by cases ch <;> rfl
  have engine : t.engine = s.engine := rfl
  have presented (ch : Channel) (waits : presents s ch = false) : presents t ch = false := by
    cases order : (s.chan ch).order with
    | some o =>
      cases o with
      | pass payload =>
        rw [presents_of_pass s ch payload order] at waits
        rw [presents_of_pass t ch payload (by rw [chan, order]), chan]
        cases accept : (s.chan ch).response == .accept with
        | false => rfl
        | true =>
          rw [accept, Bool.true_and] at waits
          exact Bool.eq_false_iff.mpr fun free => Bool.eq_false_iff.mp waits (room ch free)
      | _ => simpa only [presents, unitReady, spanReady, chan, engine, order] using waits
    | none => simpa only [presents, unitReady, spanReady, chan, engine, order] using waits
  obtain ⟨decodeLine, decodeLocal, rowLine, rowLocal, render, grant, restore⟩ := (dueStep_none s).mp quiet
  refine (dueStep_none t).mpr ⟨decodeLine, decodeLocal, rowLine, rowLocal, render, ?_, restore⟩
  cases held : s.engine.held with
  | some h => simp [grantee, t, held]
  | none =>
    rw [grantee_of_free s held] at grant
    rw [grantee_of_free t held]
    cases line : presents s .lineCh <;> cases own : presents s .localCh <;> simp [line, own] at grant
    simp [presented _ line, presented _ own]

/-- A press that is due at rest lets its event end in its direct effect. -/
theorem closeEvent_sendPress (c : TouchCell) (s u : State) (begun : u.event = some (observe s))
    (quiet : dueStep u = none) (same : observe u = observe s) :
    closeEvent (sendPress c u) = (sendPress c u).withEvent none := by
  obtain ⟨l, p, sent, up, notUp, local', notLocal⟩ := sendPress_eq c u
  have upstream : u.lineIf.upstream.length ≤ l.upstream.length := by
    by_cases routed : RoutesUpstream u
    · exact up routed ▸ pressUpstream_longer c u
    · exact notUp routed ▸ Nat.le_refl _
  have input : u.port.input.length ≤ p.input.length := by
    by_cases routed : RoutesLocal u
    · exact local' routed ▸ pressLocal_longer c u
    · exact notLocal routed ▸ Nat.le_refl _
  rw [sent]
  exact closeEvent_of_observe s _ begun (dueStep_of_longerQueues upstream input quiet) same

theorem dueStep_raiseWhen (b : Bool) (f : EventFlag) (s : State) : dueStep (raiseWhen b f s) = dueStep s := by
  cases b <;> rfl

/-- The end of an event makes no step due. -/
theorem dueStep_endEvent (s : State) : dueStep (endEvent s) = dueStep s := by
  unfold endEvent
  split
  · rfl
  · simp only [dueStep_withEvent, dueStep_raiseWhen]

/-- An event that has freed places stays open for a press until its steps are made, and is over where it has none (R117). -/
theorem closeEvent_of_freed (s : State) (freed : opening s = .freed) :
    AtRest (closeEvent s) ∨ placesOpen (closeEvent s) = true := by
  rcases closeEvent_cases s with ⟨-, e⟩ | ⟨quiet, -, e⟩ <;> rw [e]
  · exact .inr (by rw [placesOpen, freed]; rfl)
  · refine .inl ⟨endEvent_event s, (dueStep_endEvent s).trans quiet⟩

/-! ### The scan event -/

section

variable {h v : BitVec 16} {s : State} {c : TouchCell}

/-- What the filter makes of a sample (R113, R114). -/
def filtered (h v : BitVec 16) (s : State) : TouchRecord × Option TouchCell :=
  filterStep (filterValue s.station.effective.filter) s.touch.record (scanResult h v)

/-- The touch scanner after a sample (R111). -/
def sampledTouch (h v : BitVec 16) (s : State) : Touch :=
  { horizontal := h, vertical := v, timer := some 40000, record := (filtered h v s).1 }

theorem scan_of_silent (released : s.terminalReset = false) (silent : (filtered h v s).2 = none) :
    scan h v s = s.withTouch (sampledTouch h v s) := by
  have out : (filterStep (filterCount s) s.touch.record (scanResult h v)).2 = none := silent
  simp only [scan, released, Bool.false_eq_true, if_false, out]
  rfl

theorem scan_of_press (released : s.terminalReset = false) (press : (filtered h v s).2 = some c) :
    scan h v s = sendPress c (s.withTouch (sampledTouch h v s)) := by
  have out : (filterStep (filterCount s) s.touch.record (scanResult h v)).2 = some c := press
  simp only [scan, released, Bool.false_eq_true, if_false, out]
  rfl

/-- The scan event at rest or together with freed places is the sample in the state as it stands (R111, R117). -/
theorem exec_scanEvent (may : AtRest s ∨ placesOpen s = true) :
    exec (.scanEvent h v) s = .next (closeEvent (scan h v (beginEvent s))) := by
  refine congrArg Host.Outcome.next ?_
  rcases may with rest | freed
  · rw [atPress_of_atRest _ s rest, atEvent_of_atRest _ s rest, beginEvent_of_atRest s rest]
  · exact if_pos freed

/-- The event of a sample, after the sample itself. -/
def sampledState (h v : BitVec 16) (s : State) : State := (beginEvent s).withTouch (sampledTouch h v s)

theorem sampledTouch_beginEvent : sampledTouch h v (beginEvent s) = sampledTouch h v s := by
  rw [beginEvent_eq]
  rfl

theorem filtered_beginEvent : filtered h v (beginEvent s) = filtered h v s := by
  rw [beginEvent_eq]
  rfl

theorem terminalReset_beginEvent (s : State) : (beginEvent s).terminalReset = s.terminalReset := by
  rw [beginEvent_eq]
  rfl

theorem sampledState_onlyChanges (h v : BitVec 16) (s : State) :
    OnlyChanges [.beams, .scanTimer, .touchRecord] s (sampledState h v s) := by
  intro p other
  rw [sampledState, beginEvent_eq]
  cases p <;> simp [SamePart] at other ⊢

/-- At rest the event of a sample begins with what holds before it noted, and no step due. -/
theorem sampledState_of_atRest (rest : AtRest s) :
    (sampledState h v s).event = some (observe s) ∧ dueStep (sampledState h v s) = none ∧
      observe (sampledState h v s) = observe s := by
  rw [sampledState, beginEvent_of_atRest s rest]
  exact ⟨rfl, rest.2, rfl⟩

/-- A sample that makes no press ends in the touch scanner alone (R111). -/
theorem exec_scanEvent_silent (released : s.terminalReset = false) (may : AtRest s ∨ placesOpen s = true)
    (silent : (filtered h v s).2 = none) : exec (.scanEvent h v) s = .next (closeEvent (sampledState h v s)) := by
  rw [exec_scanEvent may, scan_of_silent ((terminalReset_beginEvent s).trans released)
      ((congrArg Prod.snd filtered_beginEvent).trans silent),
    sampledTouch_beginEvent, sampledState]

/-- A sample that makes a press ends in it and the queues that the touch route names (R111, R117). -/
theorem exec_scanEvent_press (released : s.terminalReset = false) (may : AtRest s ∨ placesOpen s = true)
    (press : (filtered h v s).2 = some c) :
    ∃ l p, exec (.scanEvent h v) s = .next (closeEvent (((sampledState h v s).withLineIf l).withPort p)) ∧
      (AtRest s → closeEvent (((sampledState h v s).withLineIf l).withPort p) =
        (((sampledState h v s).withLineIf l).withPort p).withEvent none) ∧
      OnlyChanges [.beams, .scanTimer, .touchRecord, .upstream, .input, .flags] s
        (((sampledState h v s).withLineIf l).withPort p) ∧
      (RoutesUpstream s → l = (pressUpstream c s).lineIf) ∧ (¬RoutesUpstream s → l = s.lineIf) ∧
      (RoutesLocal s → p = (pressLocal c s).port) ∧ (¬RoutesLocal s → p = s.port) := by
  obtain ⟨l, p, sent, up, notUp, local', notLocal⟩ := sendPress_eq c (sampledState h v s)
  have run : exec (.scanEvent h v) s = .next (closeEvent (sendPress c (sampledState h v s))) := by
    rw [exec_scanEvent may, scan_of_press ((terminalReset_beginEvent s).trans released)
      ((congrArg Prod.snd filtered_beginEvent).trans press),
      sampledTouch_beginEvent, sampledState]
  have quiet (rest : AtRest s) : closeEvent (sendPress c (sampledState h v s)) =
      (sendPress c (sampledState h v s)).withEvent none := by
    obtain ⟨begun, idle, same⟩ := sampledState_of_atRest (h := h) (v := v) rest
    exact closeEvent_sendPress c s _ begun idle same
  have same : (sampledState h v s).supervision = s.supervision ∧ (sampledState h v s).lineIf = s.lineIf ∧
      (sampledState h v s).port = s.port := by
    rw [sampledState, beginEvent_eq]
    exact ⟨rfl, rfl, rfl⟩
  obtain ⟨supervision, lineIf, port⟩ := same
  have changes := (sampledState_onlyChanges h v s).trans (sendPress_onlyChanges c (sampledState h v s))
  rw [sent] at run quiet changes
  rw [RoutesUpstream, supervision] at up notUp
  rw [RoutesLocal, supervision] at local' notLocal
  exact ⟨l, p, run, quiet, changes, fun routed => (up routed).trans (pressUpstream_lineIf lineIf),
    fun other => (notUp other).trans lineIf, fun routed => (local' routed).trans (pressLocal_port port),
    fun other => (notLocal other).trans port⟩

end

end Sys2Proof.Machine
end

section
/-! PROOFS. The press of a scan event: the queues it meets at rest, and the places that an event just before has freed. -/

namespace Sys2Proof.Machine

/-- Flags are all that the flags after a command speak of. -/
theorem FlagsAfter.of_after {raised : List EventFlag} {s t u : State} (h : FlagsAfter raised s t)
    (same : u.port.flags = t.port.flags) : FlagsAfter raised s u := by
  simpa only [FlagsAfter, flagSet, same] using h

/-! ### Freed places -/

/-- At rest an event that frees places of a full queue stays open for a press, or is over (R117). -/
theorem closeEvent_freePlaces (s w : State) (full : Bool) (isFull : full = true) (begun : w.event = some (observe s)) :
    AtRest (closeEvent (freePlaces full w)) ∨ placesOpen (closeEvent (freePlaces full w)) = true := by
  refine closeEvent_of_freed _ ?_
  simp [isFull, freePlaces, openEvent, opening, begun]

/-- What a sample reads is the same in both states. -/
structure SameScan (s t : State) : Prop where
  released : t.terminalReset = s.terminalReset
  touch : t.touch = s.touch
  station : t.station = s.station

theorem SameScan.filtered {s t : State} (h : SameScan s t) (x y : BitVec 16) :
    Machine.filtered x y t = Machine.filtered x y s := by
  rw [Machine.filtered, h.touch, h.station, Machine.filtered]

section

variable {h v : BitVec 16} {s : State} {c : TouchCell}

/-- A press by a route to the local queue takes a free place in it (R117). -/
theorem exec_press_joinsInput (released : s.terminalReset = false) (may : AtRest s ∨ placesOpen s = true)
    (press : (filtered h v s).2 = some c) (routed : RoutesLocal s) (room : s.port.input.length < 16) :
    ∃ u, exec (.scanEvent h v) s = .next u ∧ u.port.input = s.port.input ++ [.touch c] ∧
      u.port.overflow = s.port.overflow ∧ ∀ ch, u.chan ch = s.chan ch := by
  obtain ⟨l, p, run, -, -, -, -, joins, -⟩ := exec_scanEvent_press released may press
  have port : p = (joinInput (.touch c) s).port := by rw [joins routed, pressLocal_of_room c s room]
  refine ⟨_, run, by simp [port], by simp [port], fun ch => ?_⟩
  rw [closeEvent_chan, State.withPort_chan, State.withLineIf_chan, sampledState, State.withTouch_chan, beginEvent_chan]

/-- A press by a route to the upstream queue takes a free place in it (R117). -/
theorem exec_press_joinsUpstream (released : s.terminalReset = false) (may : AtRest s ∨ placesOpen s = true)
    (press : (filtered h v s).2 = some c) (routed : RoutesUpstream s) (room : s.lineIf.upstream.length < 16) :
    ∃ u, exec (.scanEvent h v) s = .next u ∧ u.lineIf.upstream = s.lineIf.upstream ++ [.touch c] ∧
      u.lineIf.overflow = s.lineIf.overflow ∧ ∀ ch, u.chan ch = s.chan ch := by
  obtain ⟨l, p, run, -, -, joins, -⟩ := exec_scanEvent_press released may press
  have lineIf : l = (pressUpstream c s).lineIf := joins routed
  rw [pressUpstream_of_room c s room] at lineIf
  refine ⟨_, run, by simp [lineIf], by simp [lineIf], fun ch => ?_⟩
  rw [closeEvent_chan, State.withPort_chan, State.withLineIf_chan, sampledState, State.withTouch_chan, beginEvent_chan]

end

/-- A read of a full INPUT queue frees a place (R59, R130). -/
theorem exec_input_of_full (s : State) (rest : AtRest s) (released : s.terminalReset = false)
    (full : s.port.input.length = 16) :
    ∃ t, exec .input s = .next t ∧ (AtRest t ∨ placesOpen t = true) ∧ SameScan s t ∧ t.port.input = s.port.input.tail ∧
      t.port.overflow = s.port.overflow ∧ t.engine = s.engine ∧ t.lineIf = s.lineIf ∧
      t.supervision = s.supervision ∧ ∀ ch, t.chan ch = s.chan ch := by
  let b := s.withEvent (some (observe s))
  have isFull : decide (16 ≤ b.port.input.length) = true := decide_eq_true (Nat.le_of_eq full.symm)
  obtain ⟨e, freed⟩ := freePlaces_eq (decide (16 ≤ b.port.input.length)) (inputRead b)
  have run : exec .input s = .next (closeEvent (freePlaces (decide (16 ≤ b.port.input.length)) (inputRead b))) := by
    refine congrArg Host.Outcome.next ?_
    rw [atEvent_of_atRest readInput s rest, readInput_of_released b released]
  have open' := closeEvent_freePlaces s (inputRead b) _ isFull rfl
  rw [freed] at run open'
  refine ⟨_, run, open', ⟨?_, ?_, ?_⟩, ?_, ?_, ?_, ?_, ?_, fun ch => ?_⟩
  case refine_9 =>
    rw [closeEvent_chan]
    cases ch <;> rfl
  all_goals simp [inputRead, b]

/-- The expiry of the gap frees places of a full upstream queue (R59, R127). -/
theorem exec_turnaroundGapExpiry_of_full (s : State) (left : Nat) (rest : AtRest s)
    (reply : s.lineIf.reply = .turnaround left) (full : s.lineIf.upstream.length = 16) :
    ∃ t, exec .turnaroundGapExpiry s = .next t ∧ (AtRest t ∨ placesOpen t = true) ∧ SameScan s t ∧
      t.lineIf.upstream = s.lineIf.upstream.drop 4 ∧ t.lineIf.overflow = false ∧ t.supervision = s.supervision ∧
      ∀ ch, t.chan ch = s.chan ch := by
  let b := s.withEvent (some (observe s))
  have isFull : upstreamFull b = true := decide_eq_true (Nat.le_of_eq full.symm)
  have count : replyCount s = 4 := by
    unfold replyCount
    rw [full]
    rfl
  have composed : composeReply b = freePlaces (upstreamFull b) (b.withLineIf (replying b)) := by
    have waits : b.lineIf.reply = .turnaround left := reply
    simp only [composeReply, waits]
    rfl
  obtain ⟨e, freed⟩ := freePlaces_eq (upstreamFull b) (b.withLineIf (replying b))
  have run : exec .turnaroundGapExpiry s = .next (closeEvent (freePlaces (upstreamFull b) (b.withLineIf (replying b)))) := by
    refine congrArg Host.Outcome.next ?_
    rw [atEvent_of_atRest composeReply s rest, ← composed]
  have open' := closeEvent_freePlaces s (b.withLineIf (replying b)) _ isFull rfl
  rw [freed] at run open'
  refine ⟨_, run, open', ⟨?_, ?_, ?_⟩, ?_, ?_, ?_, fun ch => ?_⟩
  case refine_4 =>
    rw [← count]
    simp [replying, b]
    rfl
  case refine_7 =>
    rw [closeEvent_chan]
    cases ch <;> rfl
  all_goals simp [replying, b]

theorem acceptClear_eq_freePlaces (s : State) : acceptClear s = freePlaces (upstreamFull s) (lineCleared s) := by
  have emptied : clearedChan .accept = Chan.initial := rfl
  simp [acceptClear, lineCleared, emptied]

/-- A CLEAR frame empties a full upstream queue (R57, R59, R125). -/
theorem exec_clear_of_full (s : State) (r : Reception) (check : Byte) (rest : AtRest s)
    (released : s.terminalReset = false) (silent : sendingReply s.lineIf = false)
    (receiving : s.lineIf.receiver = .receiving) (place : s.lineIf.assembler = .check r) (kind : r.kind = .clear)
    (sum : r.sum + check = 0) (full : s.lineIf.upstream.length = 16) :
    ∃ t, exec (.clear check) s = .next t ∧ (AtRest t ∨ placesOpen t = true) ∧ SameScan s t ∧ t.lineIf.upstream = [] ∧
      t.lineIf.overflow = s.lineIf.overflow ∧ t.supervision.route = s.station.effective.route ∧
      t.localChan = s.localChan := by
  let b := s.withEvent (some (observe s))
  let u := b.withLineIf (heard s.lineIf)
  have checked : checkArrives .clear check b = freePlaces (upstreamFull u) (lineCleared u) := by
    rw [← kind, checkArrives_of_check b r check (mayArrive_of s released silent receiving) place,
      checkCharacter_of_clear _ sum kind, acceptClear_eq_freePlaces]
    rfl
  have isFull : upstreamFull u = true := decide_eq_true (Nat.le_of_eq full.symm)
  obtain ⟨e, freed⟩ := freePlaces_eq (upstreamFull u) (lineCleared u)
  have run : exec (.clear check) s = .next (closeEvent (freePlaces (upstreamFull u) (lineCleared u))) := by
    refine congrArg Host.Outcome.next ?_
    rw [atEvent_of_atRest (checkArrives .clear check) s rest, ← checked]
  have open' := closeEvent_freePlaces s (lineCleared u) _ isFull (by simp [lineCleared, u, b])
  rw [freed] at run open'
  refine ⟨_, run, open', ⟨?_, ?_, ?_⟩, ?_, ?_, ?_, ?_⟩ <;> simp [lineCleared, hunting, heard, u, b]

/-! ### The grant of a PASS behind a read -/

/-- Of a FREE engine at rest no channel presents a piece (R6). -/
theorem not_presents_of_atRest (s : State) (rest : AtRest s) (free : s.engine.held = none) (ch : Channel) :
    presents s ch = false := by
  obtain ⟨-, -, -, -, -, grant, -⟩ := (dueStep_none s).mp rest.2
  rw [grantee_of_free s free] at grant
  cases line : presents s .lineCh <;> cases own : presents s .localCh <;> simp [line, own] at grant
  cases ch
  · exact line
  · exact own

/-- The line channel that presents alone is granted (R6). -/
theorem grantee_of_line (s : State) (free : s.engine.held = none) (line : presents s .lineCh = true)
    (other : presents s .localCh = false) : grantee s = some .lineCh := by
  rw [grantee_of_free s free, line, other]
  rfl

/-- Behind a read of a full INPUT queue a press takes the freed place from the PASS that waits for it, which without the press
takes it itself (R59, R117). -/
theorem press_takes_freed_input_place (s : State) (h v : BitVec 16) (c : TouchCell) (p : BitVec 12) (rest : AtRest s)
    (released : s.terminalReset = false) (press : (filtered h v s).2 = some c) (routed : RoutesLocal s)
    (full : s.port.input.length = 16) (free : s.engine.held = none) (accept : s.lineChan.response = .accept)
    (order : s.lineChan.order = some (.pass p)) :
    ∃ t u w, exec .input s = .next t ∧
      exec (.scanEvent h v) t = .next u ∧ u.port.input = s.port.input.tail ++ [.touch c] ∧
        u.port.overflow = s.port.overflow ∧ u.lineChan = s.lineChan ∧ presents u .lineCh = false ∧
      exec (.pass .lineCh) t = .next w ∧ w.port.input = s.port.input.tail ++ [.pass p] ∧
        w.lineChan = { s.lineChan with order := none } := by
  obtain ⟨t, read, may, same, input, overflow, engine, lineIf, supervision, chan⟩ :=
    exec_input_of_full s rest released full
  have routed' : RoutesLocal t := by rwa [RoutesLocal, supervision]
  have room : t.port.input.length < 16 := by rw [input, List.length_tail, full]; decide
  obtain ⟨u, sent, joined, kept, chan'⟩ := exec_press_joinsInput (same.released.trans released) may
    ((congrArg Prod.snd (same.filtered h v)).trans press) routed' room
  have line : u.lineChan = s.lineChan := (chan' .lineCh).trans (chan .lineCh)
  have taken : 16 ≤ u.port.input.length := by
    rw [joined, List.length_append, input, List.length_tail, full, List.length_singleton]
  obtain ⟨-, -, waits⟩ := passJoinsTheOtherQueue u .lineCh p
  have granted : Granted .lineCh t (.pass p) := by
    have order' : (t.chan .lineCh).order = some (.pass p) := by rw [chan]; exact order
    refine ⟨grantee_of_line t (engine ▸ free) ?_ ?_, order'⟩
    · have open' : passRoom t .lineCh = true := decide_eq_true room
      rw [presents_of_pass t .lineCh p order', open', chan]
      simp [State.chan, accept]
    · have same : presents t .localCh = presents s .localCh := by
        simp only [presents, unitReady, spanReady, passRoom, chan, engine, lineIf]
      rw [same]
      exact not_presents_of_atRest s rest free .localCh
  obtain ⟨-, w, passes, next, -, completes, -⟩ := (passJoinsTheOtherQueue t .lineCh p).1 rfl granted
  refine ⟨t, u, w, read, sent, input ▸ joined, kept.trans overflow, line,
    (waits (line.symm ▸ order : u.lineChan.order = _)).1 rfl taken, passes, input ▸ next, ?_⟩
  rw [completes, show t.lineChan = s.lineChan from chan .lineCh]

/-! ### The obligation -/

/-- Settles O49: at rest and behind freed places a sample without a press changes the touch scanner, and a press the queues of
its route. -/
theorem scanEventSendsPresses : Obligations.ScanEventSendsPresses := by
  intro s h v released out toUpstream toInput
  refine ⟨fun may => ?_, fun c p rest press => ⟨fun routed full free accept order => ?_, fun accept order full =>
    ⟨fun left routed reply => ?_, fun r check routed silent receiving place kind sum => ?_⟩⟩⟩
  · cases press : out.2 with
    | none =>
      let t := closeEvent (sampledState h v s)
      have changes := sampledState_onlyChanges h v s
      have flags : (sampledState h v s).port.flags = s.port.flags := changes .flags (by simp)
      refine ⟨t, exec_scanEvent_silent released may press, ?_, (changes.trans (onlyChanges_closeEvent _)).mono (by simp),
        fun _ => ⟨changes.trans (onlyChanges_closeEvent _), (FlagsAfter.of_flags flags).closed⟩, fun _ rest => ?_, nofun⟩
      · simp [t, sampledState, sampledTouch, filtered, out]
      · obtain ⟨begun, idle, same⟩ := sampledState_of_atRest (h := h) (v := v) rest
        have ended : t = (sampledState h v s).withEvent none := closeEvent_of_observe s _ begun idle same
        rw [ended]
        exact changes.trans (onlyChanges_withEvent _ none)
    | some c =>
      obtain ⟨l, p, run, quiet, changes, up, notUp, local', notLocal⟩ := exec_scanEvent_press released may press
      refine ⟨_, run, ?_, (changes.trans (onlyChanges_closeEvent _)).mono (by simp), nofun, nofun, ?_⟩
      · simp [sampledState, sampledTouch, filtered, out]
      rintro _ ⟨⟩
      refine ⟨fun routed room => ?_, fun routed full => ?_, fun other => ?_, fun routed room => ?_, fun routed full => ?_,
        fun other => ?_⟩
      · have lineIf := up routed
        rw [pressUpstream_of_room c s room] at lineIf
        simp [lineIf]
      · have lineIf := up routed
        rw [pressUpstream_of_full c s full] at lineIf
        simp [lineIf]
      · simp [SamePart, notUp other]
      · have port := local' routed
        rw [pressLocal_of_room c s room] at port
        refine ⟨by simp [port], by simp [port], FlagsAfter.closed ?_⟩
        exact (joinInput_joined (.touch c) s).2.of_after (by rw [← port]; rfl)
      · have port := local' routed
        rw [pressLocal_of_full c s full] at port
        refine ⟨by simp [port], by simp [port], FlagsAfter.closed (.of_flags (by rw [port]; rfl)), fun rest => ?_⟩
        rw [quiet rest, port]
        rfl
      · have port := notLocal other
        refine ⟨by simp [SamePart, port], FlagsAfter.closed (.of_flags (by rw [port]; rfl)), fun rest => ?_⟩
        rw [quiet rest, port]
        rfl
  · exact press_takes_freed_input_place s h v c p rest released press routed full free accept order
  · obtain ⟨t, run, may, same, upstream, overflow, supervision, chan⟩ :=
      exec_turnaroundGapExpiry_of_full s left rest reply full
    have routed' : RoutesUpstream t := by rwa [RoutesUpstream, supervision]
    have room : t.lineIf.upstream.length < 16 := by rw [upstream, List.length_drop, full]; decide
    obtain ⟨u, sent, joined, kept, chan'⟩ := exec_press_joinsUpstream (same.released.trans released) may
      ((congrArg Prod.snd (same.filtered h v)).trans press) routed' room
    exact ⟨t, u, run, sent, upstream ▸ joined, kept.trans overflow, (chan' .localCh).trans (chan .localCh)⟩
  · obtain ⟨t, run, may, same, upstream, overflow, route, own⟩ :=
      exec_clear_of_full s r check rest released silent receiving place kind sum full
    have routed' : RoutesUpstream t := by rwa [RoutesUpstream, route]
    have room : t.lineIf.upstream.length < 16 := by rw [upstream]; decide
    obtain ⟨u, sent, joined, kept, chan'⟩ := exec_press_joinsUpstream (same.released.trans released) may
      ((congrArg Prod.snd (same.filtered h v)).trans press) routed' room
    exact ⟨t, u, run, sent, joined.trans (by rw [upstream]; rfl), kept.trans overflow, (chan' .localCh).trans own⟩

end Sys2Proof.Machine
end

section
/-! PROOFS. A TAKE that comes together with a RESUME: what the local channel keeps, and the steps with no grant to it that lead to
the TAKE. -/

namespace Sys2Proof.Machine

/-! ### What the local channel keeps -/

/-- A channel in ACCEPT that has nothing to do without a grant (R50). -/
structure WaitsForGrant (c : Chan) : Prop where
  accept : c.response = .accept
  decode : reached .localCh c = .waits
  row : droppedRowReady c = false

theorem WaitsForGrant.not_due {s : State} (w : WaitsForGrant s.localChan) :
    decodeDue .localCh s = false ∧ droppedRowDue .localCh s = false := by
  constructor
  · show (reached .localCh s.localChan != .waits) = false
    rw [w.decode]
    rfl
  · show (s.localChan.response == .accept && droppedRowReady s.localChan) = false
    rw [w.row, Bool.and_false]

/-- A channel with an order in progress that is no dropped row waits for its grant (R50). -/
theorem WaitsForGrant.of_order {c : Chan} (accept : c.response = .accept) (order : c.order.isSome = true)
    (row : droppedRowReady c = false) : WaitsForGrant c := by
  refine ⟨accept, ?_, row⟩
  cases carried : c.order with
  | none => simp [carried] at order
  | some o => simp [reached, carried]

/-- A channel with no word and no order has nothing to do. -/
theorem WaitsForGrant.of_empty {c : Chan} (accept : c.response = .accept) (order : c.order = none) (fifo : c.fifo = []) :
    WaitsForGrant c :=
  ⟨accept, by simp [reached, accept, order, fifo, reachedIn], by simp [droppedRowReady, order]⟩

/-- The local channel, returned to ACCEPT, has acted at once and kept `kept` (R50, R107). -/
structure KeptAtResume (s : State) (kept : Chan) : Prop where
  settled : settleAmong localAtOnce Config.eventFuel (goOn s) = (goOn s).withLocalChan kept
  waits : WaitsForGrant kept

theorem dueAmong_localAtOnce_of_waits {s : State} (w : WaitsForGrant s.localChan) : dueAmong localAtOnce s = none := by
  obtain ⟨decode, row⟩ := w.not_due
  simp [dueAmong, localAtOnce, isDue, decode, row]

/-- A channel that waits keeps what it has. -/
theorem KeptAtResume.of_waits {s : State} (w : WaitsForGrant s.localChan) : KeptAtResume s s.localChan :=
  ⟨settleAmong_of_rest _ _ _ (dueAmong_localAtOnce_of_waits (s := goOn s) w), w⟩

/-- A channel whose decoder reaches an order keeps what the decoder makes of it (R50). -/
theorem KeptAtResume.of_reaches {s : State} {kind : OrderKind} {head : Word} {args rest : List Word} {kept : Chan}
    (reaches : ReachesOrder .localCh s kind head args rest)
    (acts : decoded .localCh s.supervision.area kind head args s.localChan = kept) (waits : WaitsForGrant kept) :
    KeptAtResume s kept := by
  refine ⟨?_, waits⟩
  have due : dueAmong localAtOnce (goOn s) = some (.decode .localCh) := by
    have reached' : decodeDue .localCh (goOn s) = true := by
      show (reached .localCh (s.chan .localCh) != .waits) = true
      rw [reaches.reached]
      rfl
    simp [dueAmong, localAtOnce, isDue, reached']
  have acts' : decodeStep .localCh (goOn s) = (goOn s).withLocalChan kept := by
    rw [← acts]
    exact ReachesOrder.decodeStep (s := goOn s) reaches
  obtain ⟨n, fuel⟩ : ∃ n, Config.eventFuel = n + 1 := ⟨_, rfl⟩
  rw [fuel, settleAmong, due]
  simp only [runInternal, acts']
  exact settleAmong_of_rest _ _ _ (dueAmong_localAtOnce_of_waits (by exact waits))

/-- A MOVE that is whole has been carried out (R50). -/
theorem KeptAtResume.of_move {s : State} {move x y : Word} (reaches : ReachesOrder .localCh s .move move [x, y] []) :
    KeptAtResume s
      { s.localChan with
        fifo := []
        context := { s.localChan.context with position := { x := coordOf x, y := coordOf y }, penFresh := true } } := by
  have words : s.localChan.fifo.drop 3 = [] := reaches.drop_fifo
  refine .of_reaches reaches ?_ (.of_empty reaches.accept reaches.idle rfl)
  simp only [decoded, reachMove, popOrder, words]
  rfl

/-- A DOT that is whole has been started (R50). -/
theorem KeptAtResume.of_dot {s : State} {dot x y : Word} (reaches : ReachesOrder .localCh s .dot dot [x, y] []) :
    KeptAtResume s
      { s.localChan with fifo := [], order := some (.dot { x := coordOf x, y := coordOf y } false) } := by
  have words : s.localChan.fifo.drop 3 = [] := reaches.drop_fifo
  refine .of_reaches reaches ?_ (.of_order reaches.accept rfl rfl)
  simp only [decoded, reachDot, startRecord, popOrder, words]
  rfl

/-- An event that comes together with the RESUME, and at which a TAKE is granted, goes to that grant (R108). -/
theorem atEvent_of_take {s : State} {kept : Chan} (resumed : resumeOpen s = true) (h : KeptAtResume s kept) :
    ∃ e, ∀ f t, untilTake Config.eventFuel (f ((s.withLocalChan kept).withEvent e)) = some t →
      atEvent f s = closeEvent t := by
  have begun : beginEvent ((goOn s).withLocalChan kept) =
      (s.withLocalChan kept).withEvent (beginEvent ((goOn s).withLocalChan kept)).event := by
    rw [beginEvent_eq]
    rfl
  refine ⟨(beginEvent ((goOn s).withLocalChan kept)).event, fun f t granted => ?_⟩
  rw [← begun, ← h.settled] at granted
  have taken : takeAtResume f s = some t := (if_pos resumed).trans granted
  simp only [atEvent, taken]

/-! ### The steps with no grant to the local channel -/

section

variable {u : State}

theorem dueAmong_decode (due : decodeDue .lineCh u = true) : dueAmong noLocalGrant u = some (.decode .lineCh) := by
  simp [dueAmong, noLocalGrant, isDue, due]

/-- The line channel has nothing to do before a render or a grant. -/
structure LineWaits (u : State) : Prop where
  decode : decodeDue .lineCh u = false
  row : droppedRowDue .lineCh u = false

theorem LineWaits.of_order {o : Order} (order : u.lineChan.order = some o) (row : droppedRowReady u.lineChan = false) :
    LineWaits u := by
  constructor
  · simp [decodeDue, reached, State.chan, order]
  · show (u.lineChan.response == .accept && droppedRowReady u.lineChan) = false
    rw [row, Bool.and_false]

theorem dueAmong_render (w : WaitsForGrant u.localChan) (line : LineWaits u) (due : renderDue u = true) :
    dueAmong noLocalGrant u = some .render := by
  obtain ⟨decode, row⟩ := w.not_due
  simp [dueAmong, noLocalGrant, isDue, decode, row, line.decode, line.row, due]

theorem dueAmong_grantLine (w : WaitsForGrant u.localChan) (line : LineWaits u) (free : u.engine.held = none)
    (presented : presents u .lineCh = true) : dueAmong noLocalGrant u = some .grantLine := by
  obtain ⟨decode, row⟩ := w.not_due
  have idle : renderDue u = false := by simp [renderDue, free]
  simp [dueAmong, noLocalGrant, isDue, decode, row, line.decode, line.row, idle, free, presented]

theorem untilTake_next {i : Internal} (n : Nat) (due : dueAmong noLocalGrant u = some i)
    (free : (runInternal i u).supervision.takeover = false) : untilTake (n + 1) u = untilTake n (runInternal i u) := by
  simp [untilTake, due, free]

theorem untilTake_taken {i : Internal} (n : Nat) (due : dueAmong noLocalGrant u = some i)
    (taken : (runInternal i u).supervision.takeover = true) : untilTake (n + 1) u = some (runInternal i u) := by
  simp [untilTake, due, taken]

/-! ### The grants of the line channel -/

/-- The state at the grant of the line channel's piece. -/
def lineGranted (u : State) : State := u.withEngine { u.engine with arbiter := .lineCh }

/-- A SUPERVISE of the line channel waits for nothing but its grant (R102). -/
theorem grantLine_of_supervise (f : Supervise) (w : WaitsForGrant u.localChan) (free : u.engine.held = none)
    (accept : u.lineChan.response = .accept) (order : u.lineChan.order = some (.supervise f)) :
    dueAmong noLocalGrant u = some .grantLine ∧
      runInternal .grantLine u = superviseUnit .lineCh f (lineGranted u) := by
  have order' : (u.chan .lineCh).order = some (.supervise f) := order
  have ready : unitReady u .lineCh = true := by simp only [unitReady, order']
  have presented : presents u .lineCh = true := by
    rw [presents, ready, Bool.true_or, Bool.and_true]
    exact beq_iff_eq.mpr accept
  refine ⟨dueAmong_grantLine w (.of_order order (by simp [droppedRowReady, order])) free presented, ?_⟩
  rw [runInternal, grantTo_of_unit .lineCh u ready]
  simp only [carryUnit, State.withEngine_chan, order']
  rfl

/-- A TAKE has been carried out, with the line channel left as `line` (R105). -/
structure TakenWith (line : Chan) (u t : State) : Prop where
  own : t.localChan = { u.localChan with response := .hold }
  supervision : t.supervision = { u.supervision with takeover := true, resumeAwaited := false }
  engine : t.engine = { u.engine with arbiter := .lineCh }
  lineChan : t.lineChan = line
  changes : OnlyChanges [.lineChan, .localChan, .takeover, .arbiter, .flags] u t
  flags : FlagsAfter [.takeover] u t

/-- The grant of a TAKE holds a local channel in ACCEPT (R105). -/
theorem takenWith_of_granted (accept : u.localChan.response = .accept) (free : u.supervision.takeover = false) :
    TakenWith { u.lineChan with order := none } u (superviseUnit .lineCh .take (lineGranted u)) := by
  have unit : superviseUnit .lineCh .take (lineGranted u) =
      completeOrder .lineCh (raiseFlag .takeover
        (((lineGranted u).withSupervision { u.supervision with takeover := true, resumeAwaited := false }).withLocalChan
          { u.localChan with response := .hold })) := by
    rw [superviseUnit, superviseEffect, takeEffect_of_free _ (by exact free)]
    simp [lineGranted, accept]
  rw [unit]
  refine ⟨rfl, by simp, by simp [lineGranted], rfl, fun p other => ?_, .of_raised rfl⟩
  cases p <;> simp [SamePart, completeOrder, lineGranted] at other ⊢

theorem untilTake_of_granted (n : Nat) (w : WaitsForGrant u.localChan) (takeover : u.supervision.takeover = false)
    (free : u.engine.held = none) (accept : u.lineChan.response = .accept)
    (order : u.lineChan.order = some (.supervise .take)) :
    ∃ t, untilTake (n + 1) u = some t ∧ TakenWith { u.lineChan with order := none } u t := by
  obtain ⟨due, grant⟩ := grantLine_of_supervise .take w free accept order
  have carried := takenWith_of_granted w.accept takeover
  rw [← grant] at carried
  exact ⟨_, untilTake_taken n due (by rw [carried.supervision]), carried⟩

/-! ### The orders of the line channel -/

/-- The line channel is FREE to start the order at the front of its FIFO. -/
structure LineReady (u : State) (fifo : List Word) : Prop where
  accept : u.lineChan.response = .accept
  order : u.lineChan.order = none
  fifo : u.lineChan.fifo = fifo

/-- The decoder of the line channel starts a SUPERVISE that is whole (R50, R102). -/
theorem decode_of_lineReady {kind : OrderKind} {head : Word} {args rest : List Word}
    (ready : LineReady u (head :: (args ++ rest))) (named : headKind head = some kind)
    (count : args.length = argumentCount kind) (words : coordinateArguments kind = false)
    (acts : ∀ c, decoded .lineCh u.supervision.area kind head args c = reachSupervise kind args c) :
    dueAmong noLocalGrant u = some (.decode .lineCh) ∧
      runInternal (.decode .lineCh) u =
        u.withLineChan { u.lineChan with fifo := rest, order := some (.supervise (superviseOf kind args)) } := by
  have reaches : ReachesOrder .lineCh u kind head args rest :=
    ⟨ready.accept, ready.order, ready.fifo, named, count, by simp [words], fun _ => rfl⟩
  refine ⟨dueAmong_decode (by rw [decodeDue, reaches.reached]; rfl), ?_⟩
  rw [runInternal, reaches.decodeStep, acts, reachSupervise, popOrder, reaches.drop_fifo]
  rfl

/-- A TAKE at the front of the line channel's FIFO is started (R50). -/
theorem decode_take {head : Word} (ready : LineReady u [head]) (named : headKind head = some .take) :
    dueAmong noLocalGrant u = some (.decode .lineCh) ∧
      runInternal (.decode .lineCh) u = u.withLineChan { u.lineChan with fifo := [], order := some (.supervise .take) } :=
  decode_of_lineReady (args := []) (rest := []) ready named rfl rfl fun _ => rfl

/-- A TAKE at the front of the line channel's FIFO is started and granted (R50, R105). -/
theorem untilTake_of_lineReady (n : Nat) {head : Word} (ready : LineReady u [head]) (named : headKind head = some .take)
    (w : WaitsForGrant u.localChan) (takeover : u.supervision.takeover = false) (free : u.engine.held = none) :
    ∃ t, untilTake (n + 2) u = some t ∧ TakenWith { u.lineChan with fifo := [] } u t := by
  obtain ⟨due, starts⟩ := decode_take ready named
  let v := u.withLineChan { u.lineChan with fifo := [], order := some (.supervise .take) }
  have same : OnlyChanges [.lineChan] u v := onlyChanges_withChan .lineCh _ u
  obtain ⟨t, run, taken⟩ := untilTake_of_granted (u := v) n w takeover free ready.accept rfl
  refine ⟨t, ?_, taken.own, taken.supervision, taken.engine, ?_, (same.trans taken.changes).mono (by simp),
    taken.flags.of_before rfl⟩
  · rw [untilTake_next (n + 1) due (by rw [starts]; exact takeover), starts, run]
  · rw [taken.lineChan, ← ready.order]
    rfl

/-- A LOCK and a TAKE behind it are started and granted one after the other (R50, R102). -/
theorem untilTake_of_lock (n : Nat) {lock sets head : Word} (ready : LineReady u [lock, sets, head])
    (locks : headKind lock = some .lock) (named : headKind head = some .take) (w : WaitsForGrant u.localChan)
    (takeover : u.supervision.takeover = false) (free : u.engine.held = none) :
    ∃ t, untilTake (n + 4) u = some t ∧
      TakenWith { u.lineChan with fifo := [] } (u.withEngine { u.engine with lockSet := setMaskOf sets }) t := by
  obtain ⟨due, starts⟩ := decode_of_lineReady (args := [sets]) (rest := [head]) ready locks rfl rfl fun _ => rfl
  let v := u.withLineChan { u.lineChan with fifo := [head], order := some (.supervise (.lock (setMaskOf sets))) }
  obtain ⟨granted, carries⟩ := grantLine_of_supervise (u := v) (.lock (setMaskOf sets)) w free ready.accept rfl
  let x := superviseUnit .lineCh (.lock (setMaskOf sets)) (lineGranted v)
  have again : LineReady x [head] := ⟨ready.accept, rfl, rfl⟩
  obtain ⟨t, run, taken⟩ := untilTake_of_lineReady n again named w takeover free
  have first : untilTake (n + 4) u = untilTake (n + 3) v := by
    rw [untilTake_next (n + 3) due (by rw [starts]; exact takeover), starts]
    rfl
  have second : untilTake (n + 3) v = untilTake (n + 2) x := by
    rw [untilTake_next (n + 2) granted (by rw [carries]; exact takeover), carries]
  have same : OnlyChanges [.lineChan, .arbiter] (u.withEngine { u.engine with lockSet := setMaskOf sets }) x := by
    intro p other
    cases p <;> simp [SamePart, x, v, superviseUnit, superviseEffect, lockEffect, lineGranted, completeOrder] at other ⊢
  have empty : ({ u.lineChan with fifo := [], order := none } : Chan) = { u.lineChan with fifo := [] } := by
    rw [← ready.order]
  refine ⟨t, first.trans (second.trans run), taken.own, taken.supervision, taken.engine, taken.lineChan.trans empty,
    (same.trans taken.changes).mono (by simp), taken.flags.of_before rfl⟩

end

end Sys2Proof.Machine
end

section
/-! PROOFS. RESUME, and the two commands whose TAKE comes together with it: an ORDERS frame, and an address window that lets a
held span render. -/

namespace Sys2Proof.Machine

/-! ### RESUME at rest -/

/-- RESUME returns a channel that awaits it to ACCEPT (R107). -/
theorem resumeLocal_of_awaiting (s : State) (hold : s.localChan.response = .hold) (free : s.supervision.takeover = false)
    (awaited : s.supervision.resumeAwaited = true) :
    resumeLocal s =
      openEvent .resumed
        ((s.withLocalChan { s.localChan with response := .accept }).withSupervision
          { s.supervision with resumeAwaited := false }) :=
  if_pos ⟨hold, free, awaited⟩

/-- RESUME leaves a channel that does not await it as it is (R107). -/
theorem resumeLocal_of_other (s : State)
    (other : s.localChan.response ≠ .hold ∨ s.supervision.takeover = true ∨ s.supervision.resumeAwaited = false) :
    resumeLocal s = s := by
  refine if_neg ?_
  rintro ⟨hold, free, awaited⟩
  rcases other with h | h | h
  · exact h hold
  · rw [free] at h
    cases h
  · rw [awaited] at h
    cases h

/-- An event that has come to a RESUME stays open (R108). -/
theorem closeEvent_of_resumed (s : State) (resumed : resumeOpen s = true) : closeEvent s = s := by
  rcases closeEvent_cases s with ⟨-, e⟩ | ⟨-, shut, -⟩
  · exact e
  · rw [resumed] at shut
    cases shut

/-! ### The held span that renders first -/

section

variable {u : State} {h : Held} {head : Word}

/-- A held span of the line channel has rendered, and a TAKE been granted behind it, with the line channel left as `line`
(R7, R105). -/
structure RenderedAndTaken (line : Chan) (u t : State) (h : Held) : Prop where
  own : t.localChan = { u.localChan with response := .hold }
  supervision : t.supervision = { u.supervision with takeover := true, resumeAwaited := false }
  held : t.engine.held = none
  arbiter : t.engine.arbiter = .lineCh
  drawn : ShadowDrawn u t h
  lineChan : t.lineChan = line
  changes :
    OnlyChanges [.shadow, .held, .items, .turn, .lineChan, .localChan, .takeover, .arbiter, .flags] u t
  flags : FlagsAfter [.takeover] u t

/-- The render of a held span of the line channel, before a TAKE (R7). -/
theorem render_of_served (w : WaitsForGrant u.localChan) (line : LineWaits u) (held : u.engine.held = some h)
    (served : engineServed u = true) :
    dueAmong noLocalGrant u = some .render ∧ runInternal .render u = renderSpan h u := by
  have due : renderDue u = true := by simp only [renderDue, held, renderCondition, served, Bool.or_true]
  exact ⟨dueAmong_render w line due, renderHeld_of_some u h held⟩

theorem renderSpan_of_line (mine : h.channel = .lineCh) :
    (renderSpan h u).lineChan = spanRendered u.lineChan ∧ (renderSpan h u).localChan = u.localChan ∧
      (renderSpan h u).engine.held = none := by
  obtain ⟨chan, other⟩ := renderSpan_chan h u
  rw [mine] at chan other
  exact ⟨chan, other .localCh (by decide), by rw [renderSpan_engine]⟩

/-- What the render and the TAKE behind it leave together. -/
theorem TakenWith.rendered {t : State} {line : Chan} (taken : TakenWith line (renderSpan h u) t) (mine : h.channel = .lineCh)
    (wf : TableWf 0 16384 u.engine.shadow) : RenderedAndTaken line u t h := by
  obtain ⟨-, own, held⟩ := renderSpan_of_line (u := u) mine
  have frame := renderSpan_onlyChanges h u
  have drawn : SpanDrawn u (renderSpan h u) h := renderSpan_spanDrawn h u wf
  have port : (renderSpan h u).port = u.port := by simp
  refine ⟨?_, ?_, ?_, ?_, ?_, taken.lineChan, ?_, taken.flags.of_before (by rw [port])⟩
  · rw [taken.own, own]
  · rw [taken.supervision, show (renderSpan h u).supervision = u.supervision by simp]
  · rw [taken.engine]
    exact held
  · rw [taken.engine]
  · have shadow : t.engine.shadow = (renderSpan h u).engine.shadow := by rw [taken.engine]
    simpa only [ShadowDrawn, shadowCell, shadowAt, shadow] using drawn.1
  · rw [mine] at frame
    exact (frame.trans taken.changes).mono (by simp [chanPart])

/-- The start of an order behind a held span changes nothing that the span's render reads. -/
theorem RenderedAndTaken.of_started {t : State} {line c : Chan} (taken : RenderedAndTaken line (u.withLineChan c) t h)
    (context : c.context = u.lineChan.context) : RenderedAndTaken line u t h := by
  have same : SameDrawing h.channel u (u.withLineChan c) := by
    refine ⟨rfl, rfl, rfl, rfl, ?_⟩
    cases h.channel with
    | lineCh => exact context
    | localCh => rfl
  have drawn : ShadowDrawn u t h := by
    simpa only [ShadowDrawn, shadowCell, same.shadowAt, same.mayDraw, same.spanMode] using taken.drawn
  exact ⟨taken.own, taken.supervision, taken.held, taken.arbiter, drawn, taken.lineChan,
    ((onlyChanges_withChan .lineCh c u).trans taken.changes).mono (by simp [chanPart]), taken.flags.of_before rfl⟩

/-- An order that completes with its span has no row dropped (R29). -/
theorem not_droppedRowReady_of_completes {c : Chan} {o : Order} (carried : c.order = some o)
    (completes : (spanRendered c).order = none) : droppedRowReady c = false := by
  cases o with
  | raster p w left image n words =>
    cases words with
    | none => simp [spanRendered, carried] at completes
    | some ws => simp [droppedRowReady, carried]
  | _ => simp [droppedRowReady, carried]

/-- An order that completes with its span lets the TAKE behind it start; a TAKE that has started stays as it is while a span
without an order renders (R7, R50, R105). -/
theorem untilTake_of_held (n : Nat) (wf : TableWf 0 16384 u.engine.shadow) (held : u.engine.held = some h)
    (mine : h.channel = .lineCh) (served : engineServed u = true) (w : WaitsForGrant u.localChan)
    (takeover : u.supervision.takeover = false) (accept : u.lineChan.response = .accept)
    (completes : (spanRendered u.lineChan).order = none) (fifo : u.lineChan.fifo = [head])
    (named : headKind head = some .take) :
    ∃ t, untilTake (n + 3) u = some t ∧ RenderedAndTaken { spanRendered u.lineChan with fifo := [] } u t h := by
  cases carried : u.lineChan.order with
  | some o =>
    have row := not_droppedRowReady_of_completes carried completes
    obtain ⟨due, renders⟩ := render_of_served w (.of_order carried row) held served
    obtain ⟨line, own, free⟩ := renderSpan_of_line (u := u) mine
    have ready : LineReady (renderSpan h u) [head] :=
      ⟨by rw [line, spanRendered_response, accept], by rw [line, completes], by rw [line, spanRendered_fifo, fifo]⟩
    have sup : (renderSpan h u).supervision.takeover = false := by simpa using takeover
    obtain ⟨t, run, taken⟩ := untilTake_of_lineReady n ready named (by rw [own]; exact w) sup free
    refine ⟨t, ?_, line ▸ taken.rendered mine wf⟩
    rw [untilTake_next (n + 2) due (by rw [renders]; exact sup), renders, run]
  | none =>
    have same : spanRendered u.lineChan = u.lineChan := by simp only [spanRendered, carried]
    obtain ⟨started, starts⟩ := decode_take (u := u) ⟨accept, carried, fifo⟩ named
    let v := u.withLineChan { u.lineChan with fifo := [], order := some (.supervise .take) }
    obtain ⟨due, renders⟩ := render_of_served (u := v) w (.of_order rfl rfl) held served
    obtain ⟨line, own, free⟩ := renderSpan_of_line (u := v) mine
    have sup : (renderSpan h v).supervision.takeover = false := by rw [(renderSpan_frame h v).2.1]; exact takeover
    obtain ⟨t, run, taken⟩ := untilTake_of_granted n (u := renderSpan h v) (by rw [own]; exact w) sup free
      (by rw [line]; exact accept) (by rw [line]; rfl)
    have rendered := (taken.rendered mine wf).of_started rfl
    have left : ({ (renderSpan h v).lineChan with order := none } : Chan) = { spanRendered u.lineChan with fifo := [] } := by
      rw [line, same, ← carried]
      rfl
    refine ⟨t, ?_, left ▸ rendered⟩
    rw [untilTake_next (n + 2) started (by rw [starts]; exact takeover), starts,
      untilTake_next (n + 1) due (by rw [renders]; exact sup), renders, run]

end

/-! ### The two commands together with a RESUME -/

/-- What a TAKE that comes together with a RESUME leaves of the local channel, takeover and the engine (R108). -/
def HeldBack (kept : Chan) (s t : State) : Prop :=
  t.localChan = { kept with response := .hold } ∧ t.supervision.takeover = true ∧
    t.supervision.resumeAwaited = false ∧ t.engine.held = none ∧ t.engine.arbiter = .lineCh ∧ FlagsAfter [.takeover] s t

theorem TakenWith.heldBack {line kept : Chan} {s u t : State} (taken : TakenWith line u t) (own : u.localChan = kept)
    (free : u.engine.held = none) (flags : u.port.flags = s.port.flags) : HeldBack kept s (closeEvent t) := by
  refine ⟨?_, ?_, ?_, ?_, ?_, (taken.flags.of_before flags).closed⟩
  · simp [taken.own, own]
  · simp [taken.supervision]
  · simp [taken.supervision]
  · simp [taken.engine, free]
  · simp [taken.engine]

theorem RenderedAndTaken.heldBack {line kept : Chan} {s u t : State} {h : Held} (taken : RenderedAndTaken line u t h)
    (own : u.localChan = kept) (flags : u.port.flags = s.port.flags) : HeldBack kept s (closeEvent t) := by
  refine ⟨?_, ?_, ?_, ?_, ?_, (taken.flags.of_before flags).closed⟩
  · simp [taken.own, own]
  · simp [taken.supervision]
  · simp [taken.supervision]
  · simp [taken.held]
  · simp [taken.arbiter]

/-- The check character of an ORDERS frame for an empty line FIFO gives it the frame's words (R123). -/
theorem checkArrives_of_orders (s : State) (r : Reception) (b : Byte) (may : mayArrive s = true)
    (place : s.lineIf.assembler = .check r) (kind : r.kind = .orders) (sum : r.sum + b = 0)
    (accept : s.lineChan.response = .accept) (fifo : s.lineChan.fifo = []) (few : s.lineIf.staging.length ≤ 256) :
    checkArrives .orders b s =
      (s.withLineIf (hunting (heard s.lineIf))).withLineChan { s.lineChan with fifo := s.lineIf.staging } := by
  let u := s.withLineIf (heard s.lineIf)
  have running : u.lineChan.response ≠ .halted := by
    show s.lineChan.response ≠ .halted
    rw [accept]
    decide
  have room : u.lineIf.staging.length ≤ fifoFree u .lineCh := by
    show s.lineIf.staging.length ≤ 256 - s.lineChan.fifo.length
    rw [fifo]
    exact few
  rw [← kind, checkArrives_of_check s r b may place, checkCharacter_of_orders u sum kind, acceptOrders_of_room u running room]
  show (s.withLineIf _).withLineChan { s.lineChan with fifo := s.lineChan.fifo ++ s.lineIf.staging } = _
  rw [fifo]
  rfl

section

variable {s : State} {kept : Chan} {head : Word}

/-- The state after an ORDERS frame that comes together with a RESUME, before the steps of its event. -/
def ordersArrived (kept : Chan) (e : Option Before) (s : State) : State :=
  (((s.withLocalChan kept).withEvent e).withLineIf (hunting (heard s.lineIf))).withLineChan
    { s.lineChan with fifo := s.lineIf.staging }

theorem ordersArrived_onlyChanges (kept : Chan) (e : Option Before) (s : State) :
    OnlyChanges [.localChan, .receiver, .lineChan] s (ordersArrived kept e s) := by
  intro p other
  cases p <;> simp [SamePart, ordersArrived, hunting, heard] at other ⊢

/-- An ORDERS frame that comes together with a RESUME, and whose words lead to a TAKE, goes to that grant (R108). -/
theorem exec_orders_of_take (released : s.terminalReset = false) (resumed : resumeOpen s = true)
    (waits : KeptAtResume s kept) (accept : s.lineChan.response = .accept) (r : Reception) (check : Byte)
    (silent : sendingReply s.lineIf = false) (receiving : s.lineIf.receiver = .receiving)
    (place : s.lineIf.assembler = .check r) (kind : r.kind = .orders) (sum : r.sum + check = 0)
    (fifo : s.lineChan.fifo = []) (few : s.lineIf.staging.length ≤ 256) :
    ∃ e, ∀ t, untilTake Config.eventFuel (ordersArrived kept e s) = some t →
      exec (.orders check) s = .next (closeEvent t) := by
  obtain ⟨e, goes⟩ := atEvent_of_take resumed waits
  refine ⟨e, fun t granted => congrArg Host.Outcome.next (goes (checkArrives .orders check) t ?_)⟩
  rw [← granted]
  exact congrArg (untilTake Config.eventFuel)
    (checkArrives_of_orders _ r check (mayArrive_of _ released silent receiving) place kind sum accept fifo few)

theorem ordersArrived_emptied (kept : Chan) (e : Option Before) (fifo : s.lineChan.fifo = []) :
    ({ (ordersArrived kept e s).lineChan with fifo := [] } : Chan) = s.lineChan := by
  show ({ s.lineChan with fifo := [] } : Chan) = s.lineChan
  rw [← fifo]

/-- The line channel comes out of the TAKE as it was before the frame. -/
theorem TakenWith.changes_from {t u : State} {e : Option Before} {line : Chan} {parts : List Part}
    (taken : TakenWith line u t) (arrived : OnlyChanges parts (ordersArrived kept e s) u) (same : line = s.lineChan) :
    OnlyChanges ([.localChan, .receiver, .takeover, .arbiter, .flags] ++ parts) s (closeEvent t) := by
  have changes := (((ordersArrived_onlyChanges kept e s).trans arrived).trans taken.changes).trans (onlyChanges_closeEvent t)
  have back : SamePart s (closeEvent t) .lineChan := by
    show (closeEvent t).lineChan = s.lineChan
    rw [← same, ← taken.lineChan]
    simp
  refine OnlyChanges.drop (changes.mono fun p listed => ?_) back
  simp only [List.mem_append, List.mem_cons, List.not_mem_nil, or_false] at listed ⊢
  tauto

end

/-- The state at an address window that comes together with a RESUME and opens for `item`, before the steps of its event. -/
def windowOpened (kept : Chan) (e : Option Before) (item : StrikeItem) (rest : List StrikeItem) (s : State) : State :=
  ((((s.withLocalChan kept).withEvent e).withSustain (openSlot (some item) s.sustain)).withStrikes
    { s.strikes with items := rest }).withPanel { s.panel with lit := applyItem item s.panel.lit }

theorem windowOpened_onlyChanges (kept : Chan) (e : Option Before) (item : StrikeItem) (rest : List StrikeItem) (s : State) :
    OnlyChanges [.localChan, .items, .cycle, .panel] s (windowOpened kept e item rest s) := by
  intro p other
  cases p <;> simp [SamePart, windowOpened, openSlot] at other ⊢

/-- An address window that comes together with a RESUME, and whose steps lead to a TAKE, goes to that grant (R69, R108). -/
theorem exec_addressWindow_of_take {s : State} {kept : Chan} {item : StrikeItem} {rest : List StrikeItem}
    (resumed : resumeOpen s = true) (waits : KeptAtResume s kept) (live : s.sustain.panelState = .live)
    (divider : s.sustain.divider = 0) (items : s.strikes.items = item :: rest) :
    ∃ e, ∀ t, untilTake Config.eventFuel (windowOpened kept e item rest s) = some t →
      exec .addressWindow s = .next (closeEvent t) := by
  obtain ⟨e, goes⟩ := atEvent_of_take resumed waits
  let b := (s.withLocalChan kept).withEvent e
  have opens : windowOpens b = windowOpened kept e item rest s := by
    rw [windowOpens_of_live b divider live, liveWindow_of_head b item rest items]
    rfl
  exact ⟨e, fun t granted => congrArg Host.Outcome.next (goes windowOpens t ((congrArg _ opens).trans granted))⟩

/-- Settles O45: RESUME at rest, and the run with no grant to the local channel that leads from a RESUME to a TAKE. -/
theorem resumeReturnsAWaitingChannel : Obligations.ResumeReturnsAWaitingChannel := by
  intro s a released
  refine ⟨fun rest hold free awaited => ?returns, fun rest other => ?ignored, fun resumed own takeover accept => ?together⟩
  case returns =>
    let b := s.withEvent (some (observe s))
    have opens := resumeLocal_of_awaiting b hold free awaited
    have ends : closeEvent (resumeLocal b) = resumeLocal b := closeEvent_of_resumed _ (by rw [opens]; rfl)
    have run : exec (.resume a) s = .next (resumeLocal b) := by
      refine congrArg Host.Outcome.next ?_
      rw [atEvent_of_released resumeLocal s rest released, ends]
    rw [opens] at run
    refine ⟨_, run, rfl, rfl, rfl, fun p other => ?_, .of_flags rfl⟩
    cases p <;> simp [SamePart, b] at other ⊢
  case ignored =>
    refine congrArg Host.Outcome.next ?_
    rw [atEvent_of_released resumeLocal s rest released, ← beginEvent_of_atRest s rest,
      resumeLocal_of_other _ (by rw [beginEvent_of_atRest s rest]; exact other), closeEvent_beginEvent s rest]
  case together =>
    intro l point kept head named keeps held
    have waits : KeptAtResume s kept := by
      rcases keeps with ⟨order, row, rfl⟩ | ⟨move, x, y, reaches, rfl⟩ | ⟨dot, x, y, reaches, rfl⟩ | ⟨order, fifo, rfl⟩
      · exact .of_waits (.of_order own order row)
      · exact .of_move reaches
      · exact .of_dot reaches
      · exact .of_waits (.of_empty own order fifo)
    refine ⟨fun r check lead free silent receiving place kind sum staging order fifo => ⟨fun alone => ?_,
      fun lock sets led locks => ?_⟩, fun h item rest wf busy mine live divider items few scanner completes fifo => ?_⟩
    · subst alone
      have few : s.lineIf.staging.length ≤ 256 := by simp [staging]
      obtain ⟨e, goes⟩ := exec_orders_of_take released resumed waits accept r check silent receiving place kind sum fifo few
      obtain ⟨t, run, taken⟩ := untilTake_of_lineReady 16777214 (u := ordersArrived kept e s)
        ⟨accept, order, staging⟩ named waits.waits takeover free
      have same := ordersArrived_emptied kept e fifo
      exact ⟨_, goes t run, taken.heldBack rfl free rfl,
        (taken.changes_from (parts := []) (fun p _ => SamePart.refl _ p) same).mono (by simp)⟩
    · subst led
      have few : s.lineIf.staging.length ≤ 256 := by simp [staging]
      obtain ⟨e, goes⟩ := exec_orders_of_take released resumed waits accept r check silent receiving place kind sum fifo few
      obtain ⟨t, run, taken⟩ := untilTake_of_lock 16777212 (u := ordersArrived kept e s)
        ⟨accept, order, staging⟩ locks named waits.waits takeover free
      have same := ordersArrived_emptied kept e fifo
      have locked : OnlyChanges [.lockSet] (ordersArrived kept e s)
          ((ordersArrived kept e s).withEngine { (ordersArrived kept e s).engine with lockSet := setMaskOf sets }) := by
        intro p other
        cases p <;> simp [SamePart] at other ⊢
      refine ⟨_, goes t run, taken.heldBack rfl free rfl, ?_, (taken.changes_from locked same).mono (by simp)⟩
      simp [taken.engine, setMaskOf]
    · obtain ⟨e, goes⟩ := exec_addressWindow_of_take resumed waits live divider items
      have served : engineServed (windowOpened kept e item rest s) = true := by
        have room : 2 ≤ 64 - rest.length := by omega
        have idle : scannerClaims (windowOpened kept e item rest s) = false := scanner
        simp only [engineServed, idle, Bool.not_false, Bool.true_or, Bool.and_true]
        exact decide_eq_true room
      obtain ⟨t, run, taken⟩ := untilTake_of_held 16777213 (u := windowOpened kept e item rest s) wf.1 busy mine served
        waits.waits takeover accept completes fifo named
      have changes := ((windowOpened_onlyChanges kept e item rest s).trans taken.changes).trans (onlyChanges_closeEvent t)
      refine ⟨_, goes t run, taken.heldBack rfl rfl, ?_, ?_, changes.mono (by simp)⟩
      · have drawn : ShadowDrawn s t h := taken.drawn.of_before rfl rfl (by rw [mine]; rfl)
        simpa only [ShadowDrawn, shadowCell, shadowAt, closeEvent_frame] using drawn
      · exact (closeEvent_chan t .lineCh).trans taken.lineChan

end Sys2Proof.Machine
end
